-- ==== Sys2Proof/Word.lean ====
section
/-! DEFINITION. The two widths of data of the machine (00_scope R6): the addressable unit of 8 bits and the
16-bit words of the index registers, the stack pointers, PC and every address. -/

namespace Sys2Proof

/-- An 8-bit quantity: A, B, DP, CC, one location of memory (00_scope R6, 20_memory R50). -/
abbrev Byte := BitVec 8

/-- A 16-bit quantity: D, X, Y, U, S, PC and every address (00_scope R6, 10_state R20). -/
abbrev Word := BitVec 16

end Sys2Proof
end

