-- ==== Sys2Proof/Config.lean ====
section
/-! DEFINITION. What an implementation fixes (the OPEN and variant parameters of 00_scope R6) as types of plain
data, and the free values: opaque constants, with no body, that stand for the spec's draw (00_scope R13). -/

namespace Sys2Proof

/-- What answers at an address (20_memory R52). -/
inductive RegionKind where
  /-- Reads return the last byte written. -/
  | ram
  /-- Reads return a fixed byte, writes are ignored. -/
  | rom
  /-- The registers of the VIA: register number = address and 0x000F (60_exceptions R231, R232). -/
  | via
  /-- Nothing answers: a read is a free byte, a write changes nothing (20_memory R64). -/
  | unmapped
deriving DecidableEq, Repr

/-- One entry of MemMap: the addresses base, base + 1, …, base + size - 1. -/
structure Region where
  base : Nat
  size : Nat
  kind : RegionKind
deriving DecidableEq, Repr

/-- Which flags `MUL` writes (00_scope R6, 40_common_operations R165). -/
inductive MulFlags where
  /-- Z, N and C from the product (C is bit 15), V cleared: the spec's default. -/
  | source
  /-- Z and C (bit 7 of the product) only. -/
  | mc6809
deriving DecidableEq, Repr

/-- VIA_TFLAG_CLEAR_READ: which counter reads clear a timer's flag (60_exceptions R264). -/
inductive TimerClear where
  /-- A read of the high byte clears the flag: the spec's default. -/
  | highOnly
  /-- A read of the low byte clears the flag. -/
  | lowOnly
  /-- Either read clears the flag. -/
  | both
deriving DecidableEq, Repr

/-- The parameters a machine is built with (00_scope R6). No step changes them. -/
structure Params where
  /-- MemMap: the first region that holds an address decides its kind; an address in no region is `unmapped`.
  The VIA window 0xD000 to 0xD00F is fixed by 20_memory R52 and is not looked up here. A region of kind `via` is a
  mirror of the device (VIA_MIRROR, 60_exceptions R232). -/
  memMap : List Region
  mulFlags : MulFlags
  timerClear : TimerClear
deriving DecidableEq, Repr

/-- DESIGN CHOICE (log 8). The k-th one-bit free value, `draw(1)` of 00_scope R13. Nothing is known of it. -/
opaque Config.freeBit : Nat → Bool

/-- DESIGN CHOICE (log 9). The k-th eight-bit free value, `draw(8)` of 00_scope R13. Nothing is known of it. -/
opaque Config.freeByte : Nat → Byte

/-- DESIGN CHOICE (log 7). The ticks of step number k that come after its accesses to the VIA, less one: with those before
the accesses they are the `Cycles(step)` of which only `n >= 1` is known (60_exceptions R262). -/
opaque Config.extraCycles : Nat → Nat

/-- DESIGN CHOICE (log 7). The ticks that elapse in a step before one of its accesses to the VIA, since the access before
it: as many as the k-th free value says, none included (20_memory R59, R71). Nothing is known of it. -/
opaque Config.accessTicks : Nat → Nat

end Sys2Proof
end

