-- ==== Sys2Proof/Machine/Bits.lean ====
section
/-! DEFINITION. Byte order and extension: the bytes of a word, a word from two bytes, sign extension
(00_scope R7 to R9, 20_memory R54). -/

namespace Sys2Proof.Machine

/-- Bits 15 to 8. -/
def hiByte (w : Word) : Byte := w.extractLsb' 8 8

/-- Bits 7 to 0. -/
def loByte (w : Word) : Byte := w.extractLsb' 0 8

/-- `{h, l}` of 00_scope R7. -/
def joinBytes (h l : Byte) : Word := h ++ l

/-- `sext_16` of a byte (00_scope R9). -/
def signExtend8 (v : Byte) : Word := v.signExtend 16

/-- `sext_16` of a 5-bit field (00_scope R9). -/
def signExtend5 (v : BitVec 5) : Word := v.signExtend 16

/-- `zext_16` of a byte (00_scope R9). -/
def zeroExtend8 (v : Byte) : Word := v.zeroExtend 16

end Sys2Proof.Machine
end

