-- ==== Sys2Proof/Machine/Flags.lean ====
section
/-! DEFINITION. The bits of CC (10_state R26), and every result and flag computation of 40_common_operations
(R131, R141 to R158, R164, R165), with the branch conditions (R159). A function answers its result and what it does to each
of H, N, Z, V, C: keep, write a bit, or leave undefined. -/

namespace Sys2Proof.Machine

/-- CC.C, bit 0 (10_state R27). -/
def ccC (cc : Byte) : Bool := cc.getLsbD 0
/-- CC.V, bit 1 (10_state R28). -/
def ccV (cc : Byte) : Bool := cc.getLsbD 1
/-- CC.Z, bit 2 (10_state R29). -/
def ccZ (cc : Byte) : Bool := cc.getLsbD 2
/-- CC.N, bit 3 (10_state R30). -/
def ccN (cc : Byte) : Bool := cc.getLsbD 3
/-- CC.I, bit 4 (10_state R31). -/
def ccI (cc : Byte) : Bool := cc.getLsbD 4
/-- CC.H, bit 5 (10_state R32). -/
def ccH (cc : Byte) : Bool := cc.getLsbD 5
/-- CC.F, bit 6 (10_state R33). -/
def ccF (cc : Byte) : Bool := cc.getLsbD 6
/-- CC.E, bit 7 (10_state R34). -/
def ccE (cc : Byte) : Bool := cc.getLsbD 7

/-- The byte with the bits of a mask set, or cleared. -/
def putMask (mask : Byte) (bit : Bool) (cc : Byte) : Byte := if bit then cc ||| mask else cc &&& ~~~mask

def putC (bit : Bool) (cc : Byte) : Byte := putMask 0x01#8 bit cc
def putV (bit : Bool) (cc : Byte) : Byte := putMask 0x02#8 bit cc
def putZ (bit : Bool) (cc : Byte) : Byte := putMask 0x04#8 bit cc
def putN (bit : Bool) (cc : Byte) : Byte := putMask 0x08#8 bit cc
def putI (bit : Bool) (cc : Byte) : Byte := putMask 0x10#8 bit cc
def putH (bit : Bool) (cc : Byte) : Byte := putMask 0x20#8 bit cc
def putF (bit : Bool) (cc : Byte) : Byte := putMask 0x40#8 bit cc
def putE (bit : Bool) (cc : Byte) : Byte := putMask 0x80#8 bit cc

/-- What an instruction does to one flag. -/
inductive FlagEffect where
  /-- The flag is unchanged. -/
  | keep
  /-- The flag takes this value. -/
  | put (bit : Bool)
  /-- The flag takes a free value, `u` of 40_common_operations (log 8). -/
  | undef
deriving DecidableEq, Repr

/-- What an instruction does to the five arithmetic flags. E, F and I are never among them. -/
structure FlagEffects where
  h : FlagEffect
  n : FlagEffect
  z : FlagEffect
  v : FlagEffect
  c : FlagEffect
deriving DecidableEq, Repr

/-- N and Z of an 8-bit result, the other flags as given (`nz8`, 40_common_operations R131). -/
def nz8 (r : Byte) (h v c : FlagEffect) : FlagEffects :=
  { h := h, n := .put r.msb, z := .put (r == 0), v := v, c := c }

/-- N and Z of a 16-bit result, the other flags as given (`nz16`, 40_common_operations R131). -/
def nz16 (r : Word) (h v c : FlagEffect) : FlagEffects :=
  { h := h, n := .put r.msb, z := .put (r == 0), v := v, c := c }

/-- `add8` (40_common_operations R141). -/
def add8 (a b : Byte) (cin : Bool) : Byte × FlagEffects :=
  let sum := a.toNat + b.toNat + cin.toNat
  let r := BitVec.ofNat 8 sum
  (r, nz8 r
    (.put (decide (a.toNat % 16 + b.toNat % 16 + cin.toNat > 15)))
    (.put (a.msb == b.msb && r.msb != a.msb))
    (.put (decide (sum > 255))))

/-- `sub8` (40_common_operations R142): C is the borrow, H is undefined. -/
def sub8 (a b : Byte) (bin : Bool) : Byte × FlagEffects :=
  let d : Int := (a.toNat : Int) - (b.toNat : Int) - (bin.toNat : Int)
  let r := BitVec.ofInt 8 d
  (r, nz8 r .undef (.put (a.msb != b.msb && r.msb != a.msb)) (.put (decide (d < 0))))

/-- The flags of `logic8` (40_common_operations R143) and of `ldst8` (R144): N and Z from the value, V cleared. -/
def logicFlags8 (r : Byte) : FlagEffects := nz8 r .keep (.put false) .keep

/-- `logic8` with AND (40_common_operations R143). -/
def and8 (a b : Byte) : Byte × FlagEffects := (a &&& b, logicFlags8 (a &&& b))
/-- `logic8` with OR (40_common_operations R143). -/
def or8 (a b : Byte) : Byte × FlagEffects := (a ||| b, logicFlags8 (a ||| b))
/-- `logic8` with EOR (40_common_operations R143). -/
def eor8 (a b : Byte) : Byte × FlagEffects := (a ^^^ b, logicFlags8 (a ^^^ b))

/-- `neg8` (40_common_operations R145). -/
def neg8 (m : Byte) : Byte × FlagEffects :=
  let r := 0#8 - m
  (r, nz8 r .undef (.put (m == 0x80#8)) (.put (m != 0)))

/-- `com8` (40_common_operations R146). -/
def com8 (m : Byte) : Byte × FlagEffects :=
  let r := m ^^^ 0xFF#8
  (r, nz8 r .keep (.put false) (.put true))

/-- `lsr8` (40_common_operations R147). -/
def lsr8 (m : Byte) : Byte × FlagEffects :=
  let r := m >>> 1
  (r, { h := .keep, n := .put false, z := .put (r == 0), v := .keep, c := .put (m.getLsbD 0) })

/-- `ror8` (40_common_operations R148): a 9-bit rotation of the byte and C. -/
def ror8 (m : Byte) (cin : Bool) : Byte × FlagEffects :=
  let r := BitVec.ofBool cin ++ m.extractLsb' 1 7
  (r, nz8 r .keep .keep (.put (m.getLsbD 0)))

/-- `asr8` (40_common_operations R149): bit 7 is kept, H is undefined. -/
def asr8 (m : Byte) : Byte × FlagEffects :=
  let r := BitVec.ofBool m.msb ++ m.extractLsb' 1 7
  (r, nz8 r .undef .keep (.put (m.getLsbD 0)))

/-- `asl8` (40_common_operations R150): H is undefined. -/
def asl8 (m : Byte) : Byte × FlagEffects :=
  let r := m <<< 1
  (r, nz8 r .undef (.put (m.getLsbD 7 != m.getLsbD 6)) (.put (m.getLsbD 7)))

/-- `rol8` (40_common_operations R151): a 9-bit rotation of the byte and C. -/
def rol8 (m : Byte) (cin : Bool) : Byte × FlagEffects :=
  let r := m.extractLsb' 0 7 ++ BitVec.ofBool cin
  (r, nz8 r .keep (.put (m.getLsbD 7 != m.getLsbD 6)) (.put (m.getLsbD 7)))

/-- `dec8` (40_common_operations R152). -/
def dec8 (m : Byte) : Byte × FlagEffects :=
  let r := m - 1
  (r, nz8 r .keep (.put (m == 0x80#8)) .keep)

/-- `inc8` (40_common_operations R153). -/
def inc8 (m : Byte) : Byte × FlagEffects :=
  let r := m + 1
  (r, nz8 r .keep (.put (m == 0x7F#8)) .keep)

/-- The flags of `tst8` (40_common_operations R154). -/
def tstFlags8 (m : Byte) : FlagEffects := nz8 m .keep (.put false) .keep

/-- `clr8` (40_common_operations R155): the result does not depend on the operand. -/
def clr8 : Byte × FlagEffects :=
  (0x00#8, { h := .keep, n := .put false, z := .put true, v := .put false, c := .put false })

/-- `daa` (40_common_operations R164): V is undefined, H is read and not written. -/
def daa (a : Byte) (hin cin : Bool) : Byte × FlagEffects :=
  let low := a.toNat % 16
  let high := a.toNat / 16
  let adjustLow := decide (low > 9) || hin
  let adjustHigh := decide (high > 9) || cin || (decide (high > 8) && decide (low > 9))
  let cf := (if adjustLow then 0x06 else 0) + (if adjustHigh then 0x60 else 0)
  let sum := a.toNat + cf
  let r := BitVec.ofNat 8 sum
  (r, nz8 r .keep .undef (.put (cin || decide (sum > 255))))

/-- `mul` (40_common_operations R165). -/
def mul (flags : MulFlags) (a b : Byte) : Word × FlagEffects :=
  let p := BitVec.ofNat 16 (a.toNat * b.toNat)
  (p, match flags with
    | .source =>
      { h := .keep, n := .put (p.getLsbD 15), z := .put (p == 0), v := .put false, c := .put (p.getLsbD 15) }
    | .mc6809 => { h := .keep, n := .keep, z := .put (p == 0), v := .keep, c := .put (p.getLsbD 7) })

/-- `add16` (40_common_operations R156). -/
def add16 (a b : Word) : Word × FlagEffects :=
  let sum := a.toNat + b.toNat
  let r := BitVec.ofNat 16 sum
  (r, nz16 r .keep (.put (a.msb == b.msb && r.msb != a.msb)) (.put (decide (sum > 65535))))

/-- `sub16` (40_common_operations R157): C is the borrow, H unchanged. -/
def sub16 (a b : Word) : Word × FlagEffects :=
  let d : Int := (a.toNat : Int) - (b.toNat : Int)
  let r := BitVec.ofInt 16 d
  (r, nz16 r .keep (.put (a.msb != b.msb && r.msb != a.msb)) (.put (decide (d < 0))))

/-- The flags of `ldst16` (40_common_operations R158). -/
def ldstFlags16 (v : Word) : FlagEffects := nz16 v .keep (.put false) .keep

/-- The flags of `SEX` (41_ops_00_1F R1029): N and Z of D, the others unchanged. -/
def sexFlags (d : Word) : FlagEffects := nz16 d .keep .keep .keep

/-- The flags of `LEAX` and `LEAY` (42_ops_20_3F R1048, R1049): Z only. -/
def leaFlags (ea : Word) : FlagEffects :=
  { h := .keep, n := .keep, z := .put (ea == 0), v := .keep, c := .keep }

/-- The conditions of the conditional branches, in the order of the low nibble of the opcode
(40_common_operations R159). -/
inductive Cond where
  | always | never | hi | ls | carryClear | carrySet | ne | eq
  | overflowClear | overflowSet | pl | mi | ge | lt | gt | le
deriving DecidableEq, Repr

/-- Whether a branch is taken (40_common_operations R159). -/
def condHolds (c : Cond) (cc : Byte) : Bool :=
  match c with
  | .always => true
  | .never => false
  | .hi => !ccC cc && !ccZ cc
  | .ls => ccC cc || ccZ cc
  | .carryClear => !ccC cc
  | .carrySet => ccC cc
  | .ne => !ccZ cc
  | .eq => ccZ cc
  | .overflowClear => !ccV cc
  | .overflowSet => ccV cc
  | .pl => !ccN cc
  | .mi => ccN cc
  | .ge => !(ccN cc != ccV cc)
  | .lt => ccN cc != ccV cc
  | .gt => !ccZ cc && !(ccN cc != ccV cc)
  | .le => ccZ cc || (ccN cc != ccV cc)

end Sys2Proof.Machine
end

