-- ==== Sys2Proof/Syntax.lean ====
section
/-! DEFINITION. The instructions: one constructor for each row of spec/opcode_table.json, with its operands
(30_encoding R82 to R107). -/

namespace Sys2Proof

/-- The base register of an indexed address, field rr of the postbyte (30_encoding R95). -/
inductive IdxReg where
  | x | y | u | s
deriving DecidableEq, Repr

/-- The indexed forms (30_encoding R93, R94). `indirect` is bit 4 of the postbyte, where the form admits both values
(R96). -/
inductive Indexed where
  /-- `n,R`, a 5-bit offset. -/
  | off5 (r : IdxReg) (n : BitVec 5)
  /-- `,R+`. -/
  | inc1 (r : IdxReg)
  /-- `,R++`. -/
  | inc2 (r : IdxReg) (indirect : Bool)
  /-- `,-R`. -/
  | dec1 (r : IdxReg)
  /-- `,--R`. -/
  | dec2 (r : IdxReg) (indirect : Bool)
  /-- `,R`. -/
  | plain (r : IdxReg) (indirect : Bool)
  /-- `B,R`. -/
  | accB (r : IdxReg) (indirect : Bool)
  /-- `A,R`. -/
  | accA (r : IdxReg) (indirect : Bool)
  /-- `n,R`, an 8-bit offset. -/
  | off8 (r : IdxReg) (n : Byte) (indirect : Bool)
  /-- `n,R`, a 16-bit offset. -/
  | off16 (r : IdxReg) (n : Word) (indirect : Bool)
  /-- `D,R`. -/
  | accD (r : IdxReg) (indirect : Bool)
  /-- `n,PCR`, an 8-bit offset; field rr of the postbyte is ignored. -/
  | pcr8 (rr : IdxReg) (n : Byte) (indirect : Bool)
  /-- `n,PCR`, a 16-bit offset; field rr of the postbyte is ignored. -/
  | pcr16 (rr : IdxReg) (n : Word) (indirect : Bool)
  /-- `[n]`, extended indirect. -/
  | extInd (n : Word)
deriving DecidableEq, Repr

/-- The registers that `EXG` and `TFR` name (30_encoding R99). -/
inductive RegCode where
  | d | x | y | u | s | pc | a | b | cc | dp
deriving DecidableEq, Repr

/-- The instructions: first the rows of spec/opcode_table.json with an operand, then those without one, each part in the
order of the table. -/
inductive Instr where
  /-- `NEG direct`, 00 (R1000). -/
  | negDirect (dd : Byte)
  /-- `COM direct`, 03 (R1003). -/
  | comDirect (dd : Byte)
  /-- `LSR direct`, 04 (R1004). -/
  | lsrDirect (dd : Byte)
  /-- `ROR direct`, 06 (R1006). -/
  | rorDirect (dd : Byte)
  /-- `ASR direct`, 07 (R1007). -/
  | asrDirect (dd : Byte)
  /-- `ASL direct`, 08 (R1008). -/
  | aslDirect (dd : Byte)
  /-- `ROL direct`, 09 (R1009). -/
  | rolDirect (dd : Byte)
  /-- `DEC direct`, 0A (R1010). -/
  | decDirect (dd : Byte)
  /-- `INC direct`, 0C (R1012). -/
  | incDirect (dd : Byte)
  /-- `TST direct`, 0D (R1013). -/
  | tstDirect (dd : Byte)
  /-- `JMP direct`, 0E (R1014). -/
  | jmpDirect (dd : Byte)
  /-- `CLR direct`, 0F (R1015). -/
  | clrDirect (dd : Byte)
  /-- `LBRA rel16`, 16 (R1022). -/
  | lbra (disp : Word)
  /-- `LBSR rel16`, 17 (R1023). -/
  | lbsr (disp : Word)
  /-- `ORCC #`, 1A (R1026). -/
  | orcc (ii : Byte)
  /-- `ANDCC #`, 1C (R1028). -/
  | andcc (ii : Byte)
  /-- `EXG regpair`, 1E (R1030). -/
  | exg (r1 : RegCode) (r2 : RegCode)
  /-- `TFR regpair`, 1F (R1031). -/
  | tfr (r1 : RegCode) (r2 : RegCode)
  /-- `BRA rel8`, 20 (R1032). -/
  | bra (rr : Byte)
  /-- `BRN rel8`, 21 (R1033). -/
  | brn (rr : Byte)
  /-- `BHI rel8`, 22 (R1034). -/
  | bhi (rr : Byte)
  /-- `BLS rel8`, 23 (R1035). -/
  | bls (rr : Byte)
  /-- `BCC rel8`, 24 (R1036). -/
  | bcc (rr : Byte)
  /-- `BCS rel8`, 25 (R1037). -/
  | bcs (rr : Byte)
  /-- `BNE rel8`, 26 (R1038). -/
  | bne (rr : Byte)
  /-- `BEQ rel8`, 27 (R1039). -/
  | beq (rr : Byte)
  /-- `BVC rel8`, 28 (R1040). -/
  | bvc (rr : Byte)
  /-- `BVS rel8`, 29 (R1041). -/
  | bvs (rr : Byte)
  /-- `BPL rel8`, 2A (R1042). -/
  | bpl (rr : Byte)
  /-- `BMI rel8`, 2B (R1043). -/
  | bmi (rr : Byte)
  /-- `BGE rel8`, 2C (R1044). -/
  | bge (rr : Byte)
  /-- `BLT rel8`, 2D (R1045). -/
  | blt (rr : Byte)
  /-- `BGT rel8`, 2E (R1046). -/
  | bgt (rr : Byte)
  /-- `BLE rel8`, 2F (R1047). -/
  | ble (rr : Byte)
  /-- `LEAX idx`, 30 (R1048). -/
  | leax (ix : Indexed)
  /-- `LEAY idx`, 31 (R1049). -/
  | leay (ix : Indexed)
  /-- `LEAS idx`, 32 (R1050). -/
  | leas (ix : Indexed)
  /-- `LEAU idx`, 33 (R1051). -/
  | leau (ix : Indexed)
  /-- `PSHS stackmask`, 34 (R1052). -/
  | pshs (mask : Byte)
  /-- `PULS stackmask`, 35 (R1053). -/
  | puls (mask : Byte)
  /-- `PSHU stackmask`, 36 (R1054). -/
  | pshu (mask : Byte)
  /-- `PULU stackmask`, 37 (R1055). -/
  | pulu (mask : Byte)
  /-- `CWAI #`, 3C (R1060). -/
  | cwai (ii : Byte)
  /-- `NEG idx`, 60 (R1096). -/
  | negIdx (ix : Indexed)
  /-- `COM idx`, 63 (R1099). -/
  | comIdx (ix : Indexed)
  /-- `LSR idx`, 64 (R1100). -/
  | lsrIdx (ix : Indexed)
  /-- `ROR idx`, 66 (R1102). -/
  | rorIdx (ix : Indexed)
  /-- `ASR idx`, 67 (R1103). -/
  | asrIdx (ix : Indexed)
  /-- `ASL idx`, 68 (R1104). -/
  | aslIdx (ix : Indexed)
  /-- `ROL idx`, 69 (R1105). -/
  | rolIdx (ix : Indexed)
  /-- `DEC idx`, 6A (R1106). -/
  | decIdx (ix : Indexed)
  /-- `INC idx`, 6C (R1108). -/
  | incIdx (ix : Indexed)
  /-- `TST idx`, 6D (R1109). -/
  | tstIdx (ix : Indexed)
  /-- `JMP idx`, 6E (R1110). -/
  | jmpIdx (ix : Indexed)
  /-- `CLR idx`, 6F (R1111). -/
  | clrIdx (ix : Indexed)
  /-- `NEG ext`, 70 (R1112). -/
  | negExt (ea : Word)
  /-- `COM ext`, 73 (R1115). -/
  | comExt (ea : Word)
  /-- `LSR ext`, 74 (R1116). -/
  | lsrExt (ea : Word)
  /-- `ROR ext`, 76 (R1118). -/
  | rorExt (ea : Word)
  /-- `ASR ext`, 77 (R1119). -/
  | asrExt (ea : Word)
  /-- `ASL ext`, 78 (R1120). -/
  | aslExt (ea : Word)
  /-- `ROL ext`, 79 (R1121). -/
  | rolExt (ea : Word)
  /-- `DEC ext`, 7A (R1122). -/
  | decExt (ea : Word)
  /-- `INC ext`, 7C (R1124). -/
  | incExt (ea : Word)
  /-- `TST ext`, 7D (R1125). -/
  | tstExt (ea : Word)
  /-- `JMP ext`, 7E (R1126). -/
  | jmpExt (ea : Word)
  /-- `CLR ext`, 7F (R1127). -/
  | clrExt (ea : Word)
  /-- `SUBA #`, 80 (R1128). -/
  | subaImm (ii : Byte)
  /-- `CMPA #`, 81 (R1129). -/
  | cmpaImm (ii : Byte)
  /-- `SBCA #`, 82 (R1130). -/
  | sbcaImm (ii : Byte)
  /-- `SUBD #`, 83 (R1131). -/
  | subdImm (imm : Word)
  /-- `ANDA #`, 84 (R1132). -/
  | andaImm (ii : Byte)
  /-- `BITA #`, 85 (R1133). -/
  | bitaImm (ii : Byte)
  /-- `LDA #`, 86 (R1134). -/
  | ldaImm (ii : Byte)
  /-- `EORA #`, 88 (R1136). -/
  | eoraImm (ii : Byte)
  /-- `ADCA #`, 89 (R1137). -/
  | adcaImm (ii : Byte)
  /-- `ORA #`, 8A (R1138). -/
  | oraImm (ii : Byte)
  /-- `ADDA #`, 8B (R1139). -/
  | addaImm (ii : Byte)
  /-- `CMPX #`, 8C (R1140). -/
  | cmpxImm (imm : Word)
  /-- `BSR rel8`, 8D (R1141). -/
  | bsr (rr : Byte)
  /-- `LDX #`, 8E (R1142). -/
  | ldxImm (imm : Word)
  /-- `SUBA direct`, 90 (R1144). -/
  | subaDirect (dd : Byte)
  /-- `CMPA direct`, 91 (R1145). -/
  | cmpaDirect (dd : Byte)
  /-- `SBCA direct`, 92 (R1146). -/
  | sbcaDirect (dd : Byte)
  /-- `SUBD direct`, 93 (R1147). -/
  | subdDirect (dd : Byte)
  /-- `ANDA direct`, 94 (R1148). -/
  | andaDirect (dd : Byte)
  /-- `BITA direct`, 95 (R1149). -/
  | bitaDirect (dd : Byte)
  /-- `LDA direct`, 96 (R1150). -/
  | ldaDirect (dd : Byte)
  /-- `STA direct`, 97 (R1151). -/
  | staDirect (dd : Byte)
  /-- `EORA direct`, 98 (R1152). -/
  | eoraDirect (dd : Byte)
  /-- `ADCA direct`, 99 (R1153). -/
  | adcaDirect (dd : Byte)
  /-- `ORA direct`, 9A (R1154). -/
  | oraDirect (dd : Byte)
  /-- `ADDA direct`, 9B (R1155). -/
  | addaDirect (dd : Byte)
  /-- `CMPX direct`, 9C (R1156). -/
  | cmpxDirect (dd : Byte)
  /-- `JSR direct`, 9D (R1157). -/
  | jsrDirect (dd : Byte)
  /-- `LDX direct`, 9E (R1158). -/
  | ldxDirect (dd : Byte)
  /-- `STX direct`, 9F (R1159). -/
  | stxDirect (dd : Byte)
  /-- `SUBA idx`, A0 (R1160). -/
  | subaIdx (ix : Indexed)
  /-- `CMPA idx`, A1 (R1161). -/
  | cmpaIdx (ix : Indexed)
  /-- `SBCA idx`, A2 (R1162). -/
  | sbcaIdx (ix : Indexed)
  /-- `SUBD idx`, A3 (R1163). -/
  | subdIdx (ix : Indexed)
  /-- `ANDA idx`, A4 (R1164). -/
  | andaIdx (ix : Indexed)
  /-- `BITA idx`, A5 (R1165). -/
  | bitaIdx (ix : Indexed)
  /-- `LDA idx`, A6 (R1166). -/
  | ldaIdx (ix : Indexed)
  /-- `STA idx`, A7 (R1167). -/
  | staIdx (ix : Indexed)
  /-- `EORA idx`, A8 (R1168). -/
  | eoraIdx (ix : Indexed)
  /-- `ADCA idx`, A9 (R1169). -/
  | adcaIdx (ix : Indexed)
  /-- `ORA idx`, AA (R1170). -/
  | oraIdx (ix : Indexed)
  /-- `ADDA idx`, AB (R1171). -/
  | addaIdx (ix : Indexed)
  /-- `CMPX idx`, AC (R1172). -/
  | cmpxIdx (ix : Indexed)
  /-- `JSR idx`, AD (R1173). -/
  | jsrIdx (ix : Indexed)
  /-- `LDX idx`, AE (R1174). -/
  | ldxIdx (ix : Indexed)
  /-- `STX idx`, AF (R1175). -/
  | stxIdx (ix : Indexed)
  /-- `SUBA ext`, B0 (R1176). -/
  | subaExt (ea : Word)
  /-- `CMPA ext`, B1 (R1177). -/
  | cmpaExt (ea : Word)
  /-- `SBCA ext`, B2 (R1178). -/
  | sbcaExt (ea : Word)
  /-- `SUBD ext`, B3 (R1179). -/
  | subdExt (ea : Word)
  /-- `ANDA ext`, B4 (R1180). -/
  | andaExt (ea : Word)
  /-- `BITA ext`, B5 (R1181). -/
  | bitaExt (ea : Word)
  /-- `LDA ext`, B6 (R1182). -/
  | ldaExt (ea : Word)
  /-- `STA ext`, B7 (R1183). -/
  | staExt (ea : Word)
  /-- `EORA ext`, B8 (R1184). -/
  | eoraExt (ea : Word)
  /-- `ADCA ext`, B9 (R1185). -/
  | adcaExt (ea : Word)
  /-- `ORA ext`, BA (R1186). -/
  | oraExt (ea : Word)
  /-- `ADDA ext`, BB (R1187). -/
  | addaExt (ea : Word)
  /-- `CMPX ext`, BC (R1188). -/
  | cmpxExt (ea : Word)
  /-- `JSR ext`, BD (R1189). -/
  | jsrExt (ea : Word)
  /-- `LDX ext`, BE (R1190). -/
  | ldxExt (ea : Word)
  /-- `STX ext`, BF (R1191). -/
  | stxExt (ea : Word)
  /-- `SUBB #`, C0 (R1192). -/
  | subbImm (ii : Byte)
  /-- `CMPB #`, C1 (R1193). -/
  | cmpbImm (ii : Byte)
  /-- `SBCB #`, C2 (R1194). -/
  | sbcbImm (ii : Byte)
  /-- `ADDD #`, C3 (R1195). -/
  | adddImm (imm : Word)
  /-- `ANDB #`, C4 (R1196). -/
  | andbImm (ii : Byte)
  /-- `BITB #`, C5 (R1197). -/
  | bitbImm (ii : Byte)
  /-- `LDB #`, C6 (R1198). -/
  | ldbImm (ii : Byte)
  /-- `EORB #`, C8 (R1200). -/
  | eorbImm (ii : Byte)
  /-- `ADCB #`, C9 (R1201). -/
  | adcbImm (ii : Byte)
  /-- `ORB #`, CA (R1202). -/
  | orbImm (ii : Byte)
  /-- `ADDB #`, CB (R1203). -/
  | addbImm (ii : Byte)
  /-- `LDD #`, CC (R1204). -/
  | lddImm (imm : Word)
  /-- `LDU #`, CE (R1206). -/
  | lduImm (imm : Word)
  /-- `SUBB direct`, D0 (R1208). -/
  | subbDirect (dd : Byte)
  /-- `CMPB direct`, D1 (R1209). -/
  | cmpbDirect (dd : Byte)
  /-- `SBCB direct`, D2 (R1210). -/
  | sbcbDirect (dd : Byte)
  /-- `ADDD direct`, D3 (R1211). -/
  | adddDirect (dd : Byte)
  /-- `ANDB direct`, D4 (R1212). -/
  | andbDirect (dd : Byte)
  /-- `BITB direct`, D5 (R1213). -/
  | bitbDirect (dd : Byte)
  /-- `LDB direct`, D6 (R1214). -/
  | ldbDirect (dd : Byte)
  /-- `STB direct`, D7 (R1215). -/
  | stbDirect (dd : Byte)
  /-- `EORB direct`, D8 (R1216). -/
  | eorbDirect (dd : Byte)
  /-- `ADCB direct`, D9 (R1217). -/
  | adcbDirect (dd : Byte)
  /-- `ORB direct`, DA (R1218). -/
  | orbDirect (dd : Byte)
  /-- `ADDB direct`, DB (R1219). -/
  | addbDirect (dd : Byte)
  /-- `LDD direct`, DC (R1220). -/
  | lddDirect (dd : Byte)
  /-- `STD direct`, DD (R1221). -/
  | stdDirect (dd : Byte)
  /-- `LDU direct`, DE (R1222). -/
  | lduDirect (dd : Byte)
  /-- `STU direct`, DF (R1223). -/
  | stuDirect (dd : Byte)
  /-- `SUBB idx`, E0 (R1224). -/
  | subbIdx (ix : Indexed)
  /-- `CMPB idx`, E1 (R1225). -/
  | cmpbIdx (ix : Indexed)
  /-- `SBCB idx`, E2 (R1226). -/
  | sbcbIdx (ix : Indexed)
  /-- `ADDD idx`, E3 (R1227). -/
  | adddIdx (ix : Indexed)
  /-- `ANDB idx`, E4 (R1228). -/
  | andbIdx (ix : Indexed)
  /-- `BITB idx`, E5 (R1229). -/
  | bitbIdx (ix : Indexed)
  /-- `LDB idx`, E6 (R1230). -/
  | ldbIdx (ix : Indexed)
  /-- `STB idx`, E7 (R1231). -/
  | stbIdx (ix : Indexed)
  /-- `EORB idx`, E8 (R1232). -/
  | eorbIdx (ix : Indexed)
  /-- `ADCB idx`, E9 (R1233). -/
  | adcbIdx (ix : Indexed)
  /-- `ORB idx`, EA (R1234). -/
  | orbIdx (ix : Indexed)
  /-- `ADDB idx`, EB (R1235). -/
  | addbIdx (ix : Indexed)
  /-- `LDD idx`, EC (R1236). -/
  | lddIdx (ix : Indexed)
  /-- `STD idx`, ED (R1237). -/
  | stdIdx (ix : Indexed)
  /-- `LDU idx`, EE (R1238). -/
  | lduIdx (ix : Indexed)
  /-- `STU idx`, EF (R1239). -/
  | stuIdx (ix : Indexed)
  /-- `SUBB ext`, F0 (R1240). -/
  | subbExt (ea : Word)
  /-- `CMPB ext`, F1 (R1241). -/
  | cmpbExt (ea : Word)
  /-- `SBCB ext`, F2 (R1242). -/
  | sbcbExt (ea : Word)
  /-- `ADDD ext`, F3 (R1243). -/
  | adddExt (ea : Word)
  /-- `ANDB ext`, F4 (R1244). -/
  | andbExt (ea : Word)
  /-- `BITB ext`, F5 (R1245). -/
  | bitbExt (ea : Word)
  /-- `LDB ext`, F6 (R1246). -/
  | ldbExt (ea : Word)
  /-- `STB ext`, F7 (R1247). -/
  | stbExt (ea : Word)
  /-- `EORB ext`, F8 (R1248). -/
  | eorbExt (ea : Word)
  /-- `ADCB ext`, F9 (R1249). -/
  | adcbExt (ea : Word)
  /-- `ORB ext`, FA (R1250). -/
  | orbExt (ea : Word)
  /-- `ADDB ext`, FB (R1251). -/
  | addbExt (ea : Word)
  /-- `LDD ext`, FC (R1252). -/
  | lddExt (ea : Word)
  /-- `STD ext`, FD (R1253). -/
  | stdExt (ea : Word)
  /-- `LDU ext`, FE (R1254). -/
  | lduExt (ea : Word)
  /-- `STU ext`, FF (R1255). -/
  | stuExt (ea : Word)
  /-- `LBRN rel16`, 10 21 (R2033). -/
  | lbrn (disp : Word)
  /-- `LBHI rel16`, 10 22 (R2034). -/
  | lbhi (disp : Word)
  /-- `LBLS rel16`, 10 23 (R2035). -/
  | lbls (disp : Word)
  /-- `LBCC rel16`, 10 24 (R2036). -/
  | lbcc (disp : Word)
  /-- `LBCS rel16`, 10 25 (R2037). -/
  | lbcs (disp : Word)
  /-- `LBNE rel16`, 10 26 (R2038). -/
  | lbne (disp : Word)
  /-- `LBEQ rel16`, 10 27 (R2039). -/
  | lbeq (disp : Word)
  /-- `LBVC rel16`, 10 28 (R2040). -/
  | lbvc (disp : Word)
  /-- `LBVS rel16`, 10 29 (R2041). -/
  | lbvs (disp : Word)
  /-- `LBPL rel16`, 10 2A (R2042). -/
  | lbpl (disp : Word)
  /-- `LBMI rel16`, 10 2B (R2043). -/
  | lbmi (disp : Word)
  /-- `LBGE rel16`, 10 2C (R2044). -/
  | lbge (disp : Word)
  /-- `LBLT rel16`, 10 2D (R2045). -/
  | lblt (disp : Word)
  /-- `LBGT rel16`, 10 2E (R2046). -/
  | lbgt (disp : Word)
  /-- `LBLE rel16`, 10 2F (R2047). -/
  | lble (disp : Word)
  /-- `CMPD #`, 10 83 (R2131). -/
  | cmpdImm (imm : Word)
  /-- `CMPY #`, 10 8C (R2140). -/
  | cmpyImm (imm : Word)
  /-- `LDY #`, 10 8E (R2142). -/
  | ldyImm (imm : Word)
  /-- `CMPD direct`, 10 93 (R2147). -/
  | cmpdDirect (dd : Byte)
  /-- `CMPY direct`, 10 9C (R2156). -/
  | cmpyDirect (dd : Byte)
  /-- `LDY direct`, 10 9E (R2158). -/
  | ldyDirect (dd : Byte)
  /-- `STY direct`, 10 9F (R2159). -/
  | styDirect (dd : Byte)
  /-- `CMPD idx`, 10 A3 (R2163). -/
  | cmpdIdx (ix : Indexed)
  /-- `CMPY idx`, 10 AC (R2172). -/
  | cmpyIdx (ix : Indexed)
  /-- `LDY idx`, 10 AE (R2174). -/
  | ldyIdx (ix : Indexed)
  /-- `STY idx`, 10 AF (R2175). -/
  | styIdx (ix : Indexed)
  /-- `CMPD ext`, 10 B3 (R2179). -/
  | cmpdExt (ea : Word)
  /-- `CMPY ext`, 10 BC (R2188). -/
  | cmpyExt (ea : Word)
  /-- `LDY ext`, 10 BE (R2190). -/
  | ldyExt (ea : Word)
  /-- `STY ext`, 10 BF (R2191). -/
  | styExt (ea : Word)
  /-- `LDS #`, 10 CE (R2206). -/
  | ldsImm (imm : Word)
  /-- `LDS direct`, 10 DE (R2222). -/
  | ldsDirect (dd : Byte)
  /-- `STS direct`, 10 DF (R2223). -/
  | stsDirect (dd : Byte)
  /-- `LDS idx`, 10 EE (R2238). -/
  | ldsIdx (ix : Indexed)
  /-- `STS idx`, 10 EF (R2239). -/
  | stsIdx (ix : Indexed)
  /-- `LDS ext`, 10 FE (R2254). -/
  | ldsExt (ea : Word)
  /-- `STS ext`, 10 FF (R2255). -/
  | stsExt (ea : Word)
  /-- `(unassigned sub-opcode)`, 10 and any sub-opcode without a row (R2900). -/
  | unassignedPage10 (sub : Byte)
  /-- `CMPU #`, 11 83 (R3131). -/
  | cmpuImm (imm : Word)
  /-- `CMPS #`, 11 8C (R3140). -/
  | cmpsImm (imm : Word)
  /-- `CMPU direct`, 11 93 (R3147). -/
  | cmpuDirect (dd : Byte)
  /-- `CMPS direct`, 11 9C (R3156). -/
  | cmpsDirect (dd : Byte)
  /-- `CMPU idx`, 11 A3 (R3163). -/
  | cmpuIdx (ix : Indexed)
  /-- `CMPS idx`, 11 AC (R3172). -/
  | cmpsIdx (ix : Indexed)
  /-- `CMPU ext`, 11 B3 (R3179). -/
  | cmpuExt (ea : Word)
  /-- `CMPS ext`, 11 BC (R3188). -/
  | cmpsExt (ea : Word)
  /-- `(unassigned sub-opcode)`, 11 and any sub-opcode without a row (R3900). -/
  | unassignedPage11 (sub : Byte)
  /-- `NOP* inh`, 01 (R1001). -/
  | nop01
  /-- `NOP* inh`, 02 (R1002). -/
  | nop02
  /-- `NOP* inh`, 05 (R1005). -/
  | nop05
  /-- `SEV inh`, 0B (R1011). -/
  | sev
  /-- `NOP inh`, 12 (R1018). -/
  | nop
  /-- `SYNC inh`, 13 (R1019). -/
  | sync
  /-- `(unassigned)`, 14 (R1020). -/
  | unassigned14
  /-- `(unassigned)`, 15 (R1021). -/
  | unassigned15
  /-- `NOP* inh`, 18 (R1024). -/
  | nop18
  /-- `DAA inh`, 19 (R1025). -/
  | daa
  /-- `ABA inh`, 1B (R1027). -/
  | aba
  /-- `SEX inh`, 1D (R1029). -/
  | sex
  /-- `NOP* inh`, 38 (R1056). -/
  | nop38
  /-- `RTS inh`, 39 (R1057). -/
  | rts
  /-- `ABX inh`, 3A (R1058). -/
  | abx
  /-- `RTI inh`, 3B (R1059). -/
  | rti
  /-- `MUL inh`, 3D (R1061). -/
  | mul
  /-- `WAI inh`, 3E (R1062). -/
  | wai
  /-- `SWI inh`, 3F (R1063). -/
  | swi
  /-- `NEGA inh`, 40 (R1064). -/
  | nega
  /-- `(unassigned)`, 41 (R1065). -/
  | unassigned41
  /-- `(unassigned)`, 42 (R1066). -/
  | unassigned42
  /-- `COMA inh`, 43 (R1067). -/
  | coma
  /-- `LSRA inh`, 44 (R1068). -/
  | lsra
  /-- `NOP* inh`, 45 (R1069). -/
  | nop45
  /-- `RORA inh`, 46 (R1070). -/
  | rora
  /-- `ASRA inh`, 47 (R1071). -/
  | asra
  /-- `ASLA inh`, 48 (R1072). -/
  | asla
  /-- `ROLA inh`, 49 (R1073). -/
  | rola
  /-- `DECA inh`, 4A (R1074). -/
  | deca
  /-- `(unassigned)`, 4B (R1075). -/
  | unassigned4B
  /-- `INCA inh`, 4C (R1076). -/
  | inca
  /-- `TSTA inh`, 4D (R1077). -/
  | tsta
  /-- `NOP* inh`, 4E (R1078). -/
  | nop4E
  /-- `CLRA inh`, 4F (R1079). -/
  | clra
  /-- `NEGB inh`, 50 (R1080). -/
  | negb
  /-- `(unassigned)`, 51 (R1081). -/
  | unassigned51
  /-- `NOP* inh`, 52 (R1082). -/
  | nop52
  /-- `COMB inh`, 53 (R1083). -/
  | comb
  /-- `LSRB inh`, 54 (R1084). -/
  | lsrb
  /-- `(unassigned)`, 55 (R1085). -/
  | unassigned55
  /-- `RORB inh`, 56 (R1086). -/
  | rorb
  /-- `ASRB inh`, 57 (R1087). -/
  | asrb
  /-- `ASLB inh`, 58 (R1088). -/
  | aslb
  /-- `ROLB inh`, 59 (R1089). -/
  | rolb
  /-- `DECB inh`, 5A (R1090). -/
  | decb
  /-- `(unassigned)`, 5B (R1091). -/
  | unassigned5B
  /-- `INCB inh`, 5C (R1092). -/
  | incb
  /-- `TSTB inh`, 5D (R1093). -/
  | tstb
  /-- `(unassigned)`, 5E (R1094). -/
  | unassigned5E
  /-- `CLRB inh`, 5F (R1095). -/
  | clrb
  /-- `(unassigned)`, 61 (R1097). -/
  | unassigned61
  /-- `(unassigned)`, 62 (R1098). -/
  | unassigned62
  /-- `(unassigned)`, 65 (R1101). -/
  | unassigned65
  /-- `(unassigned)`, 6B (R1107). -/
  | unassigned6B
  /-- `(unassigned)`, 71 (R1113). -/
  | unassigned71
  /-- `(unassigned)`, 72 (R1114). -/
  | unassigned72
  /-- `(unassigned)`, 75 (R1117). -/
  | unassigned75
  /-- `NOP* inh`, 7B (R1123). -/
  | nop7B
  /-- `(unassigned)`, 87 (R1135). -/
  | unassigned87
  /-- `NOP* inh`, 8F (R1143). -/
  | nop8F
  /-- `(unassigned)`, C7 (R1199). -/
  | unassignedC7
  /-- `(unassigned)`, CD (R1205). -/
  | unassignedCD
  /-- `(unassigned)`, CF (R1207). -/
  | unassignedCF
  /-- `SWI2 inh`, 10 3F (R2063). -/
  | swi2
  /-- `SWI3 inh`, 11 3F (R3063). -/
  | swi3
deriving DecidableEq, Repr

end Sys2Proof
end

