-- ==== Sys2Proof/Machine/RegCodes.lean ====
section
/-! DEFINITION. The widths of the registers that `EXG` and `TFR` name (30_encoding R99). -/

namespace Sys2Proof.Machine

/-- Whether a register code names a 16-bit register. -/
def isWide : RegCode → Bool
  | .d | .x | .y | .u | .s | .pc => true
  | .a | .b | .cc | .dp => false

end Sys2Proof.Machine
end

