-- ==== Sys2Proof/Machine/State.lean ====
section
/-! DEFINITION. The state of the machine as plain data (10_state R20 to R41, 60_exceptions R233), the reasons a step
can stop, and the state right after reset. -/

namespace Sys2Proof.Machine

/-- Whether the processor executes or waits (10_state R38). -/
inductive Wait where
  | running
  /-- Stopped by `SYNC` (60_exceptions R217). -/
  | sync
  /-- Stopped by `CWAI`, the frame already on the stack (60_exceptions R218). -/
  | cwai
  /-- Stopped by `WAI` (60_exceptions R219). -/
  | wai
deriving DecidableEq, Repr

/-- One thing the host does between two steps (70_reset_and_hazards R289, 60_exceptions R263). -/
inductive HostEvent where
  /-- A falling edge on NMI. -/
  | nmiEdge
  /-- The level of FIRQ: true is asserted. -/
  | firq (asserted : Bool)
  /-- The level of the host's part of IRQ: true is asserted. -/
  | irqExt (asserted : Bool)
  /-- The level of RESET: true is asserted. -/
  | reset (asserted : Bool)
  /-- The levels on the pins of port A. -/
  | portA (levels : Byte)
  /-- The levels on the pins of port B; a fall of bit 6 is a pulse on PB6. -/
  | portB (levels : Byte)
  | ca1 (level : Bool)
  | ca2 (level : Bool)
  | cb1 (level : Bool)
  | cb2 (level : Bool)
deriving DecidableEq, Repr

/-- The VIA 6522 (60_exceptions R233). Bit 7 of IFR is not stored (R251). -/
structure Via where
  ora : Byte
  orb : Byte
  ira : Byte
  irb : Byte
  ddra : Byte
  ddrb : Byte
  /-- Timer 1 counter. -/
  t1c : Word
  /-- Timer 1 latches. -/
  t1l : Word
  /-- Timer 2 counter. -/
  t2c : Word
  /-- Timer 2 low latch. -/
  t2ll : Byte
  /-- Shift register. -/
  sr : Byte
  /-- Shifts left to do in the current byte, 0 to 8. -/
  srCount : Nat
  /-- The model's own: the next shift clock of an internally clocked mode is the one that shifts (log 17). -/
  srPhase : Bool
  acr : Byte
  pcr : Byte
  /-- Interrupt flags, bits 6 to 0 (R250). -/
  ifr : BitVec 7
  /-- Interrupt enables, bits 6 to 0 (R252). -/
  ier : BitVec 7
  t1Armed : Bool
  t2Armed : Bool
  t1Reload : Bool
  pb7Out : Bool
  ca2Out : Bool
  cb2Out : Bool
  /-- A pulse on CA2 or CB2 has begun and ends at the next tick (60_exceptions R260, mode 101). -/
  ca2Pulse : Bool
  cb2Pulse : Bool
  /-- The levels the outside drives on the pins of port A. -/
  pa : Byte
  /-- The levels the outside drives on the pins of port B. -/
  pb : Byte
  ca1 : Bool
  ca2 : Bool
  cb1 : Bool
  cb2 : Bool
deriving DecidableEq, Repr

/-- The whole machine. -/
structure State where
  /-- Accumulator A (10_state R20); D is the pair A:B and has no field (R22). -/
  a : Byte
  /-- Accumulator B. -/
  b : Byte
  /-- Index register X. -/
  x : Word
  /-- Index register Y. -/
  y : Word
  /-- User stack pointer U. -/
  u : Word
  /-- Hardware stack pointer S. -/
  s : Word
  /-- Program counter (R24). -/
  pc : Word
  /-- Direct page register (R25). -/
  dp : Byte
  /-- Condition codes E F H I N Z V C, bit 7 down to bit 0 (R26). -/
  cc : Byte
  /-- Executing or waiting (R38). -/
  wait : Wait
  /-- NMI edges count: S has been loaded since reset (60_exceptions R206). -/
  nmiArmed : Bool
  /-- An NMI edge has been seen and not yet served. -/
  nmiPending : Bool
  /-- The level of the FIRQ input, true is asserted. -/
  firqLine : Bool
  /-- The level of the host's part of the IRQ input, true is asserted (60_exceptions R253). -/
  irqExt : Bool
  /-- The level of the RESET input, true is asserted (70_reset_and_hazards R280). -/
  resetLine : Bool
  /-- The bytes of RAM and ROM, canonical (`Memory.wf`). -/
  mem : List Host.Cell
  /-- The VIA 6522. -/
  via : Via
  /-- The parameters the machine is built with; no step changes them (00_scope R6). -/
  params : Params
  /-- The model's own: what the host does at the coming steps, one frame a step; an empty list is a host that does
  nothing more (log 10). -/
  inputs : List (List HostEvent)
  /-- The model's own: how many free values have been drawn (log 8). -/
  draws : Nat
  /-- The model's own: how many steps have been taken, the argument of Cycles (log 7). -/
  steps : Nat
deriving DecidableEq, Repr

/-- The faults of the machine: none. The processor raises no synchronous exception, has no bus error and no trap
(60_exceptions R200), so no step ends in a fault. -/
inductive Fault where
deriving DecidableEq, Repr

/-- Why the spec gives a step no successor (00_scope R13, `refuse`). Each is safe: the model says nothing where the
spec says nothing. -/
inductive Refusal where
  /-- Raised by an arm of `exec` whose instruction has no meaning yet; no arm does. Safe. -/
  | notModelled (mnemonic : String)
  /-- Raised by the twenty unassigned primary bytes (30_encoding R105). Safe. -/
  | unassignedOpcode (opcode : Byte)
  /-- Raised by a prefixed pair that no row lists (49_pages_10_11 R2900, R3900). Safe. -/
  | unassignedSubOpcode (pagePrefix opcode : Byte)
  /-- Raised by the decoder on a postbyte of 30_encoding R97. Safe. -/
  | illegalPostbyte (postbyte : Byte)
  /-- Raised by the decoder on a register code that names nothing, and by the decoder and by `EXG` and `TFR` on
  registers of two widths (30_encoding R99). Safe. -/
  | illegalRegisterPair
  /-- Raised by a step if five bytes did not decide an instruction, which never happens: the longest instruction has five
  (30_encoding R112). Safe. -/
  | longerThanFiveBytes
deriving DecidableEq, Repr

/-- DESIGN CHOICE (log 5, log 6). The parameters of `State.reset`: RAM over the whole space (the VIA window comes
first), and the spec's defaults. -/
def Params.default : Params :=
  { memMap := [{ base := 0, size := 65536, kind := .ram }]
    mulFlags := .source
    timerClear := .highOnly }

/-- The VIA after its reset (60_exceptions R261). T1C, T1L, T2C, T2LL and SR are unspecified there: zero here is a
DESIGN CHOICE (log 3), as are the levels of the pins (log 11) and the phase of the shift clock (log 17). -/
def Via.reset : Via :=
  { ora := 0, orb := 0, ira := 0, irb := 0, ddra := 0, ddrb := 0
    t1c := 0, t1l := 0, t2c := 0, t2ll := 0
    sr := 0, srCount := 0, srPhase := false
    acr := 0, pcr := 0, ifr := 0, ier := 0
    t1Armed := false, t2Armed := false, t1Reload := false
    pb7Out := true, ca2Out := true, cb2Out := true, ca2Pulse := false, cb2Pulse := false
    pa := 0, pb := 0, ca1 := false, ca2 := false, cb1 := false, cb2 := false }

/-- The machine right after reset (10_state R41, 70_reset_and_hazards R280): DP = 0, I = F = 1, running, NMI disarmed and
not pending, PC from the reset vector, the VIA reset. What R41 leaves unspecified has a named value, DESIGN CHOICE:
A, B, X, Y, U, S (log 1), the other bits of CC (log 2), RAM (log 4); the lines are released and the host does nothing
(log 10, log 12). -/
def State.reset : State :=
  { a := 0, b := 0, x := 0, y := 0, u := 0, s := 0
    pc := joinBytes (Memory.read [] 0xFFFE) (Memory.read [] 0xFFFF)
    dp := 0x00#8
    cc := 0x50#8
    wait := .running
    nmiArmed := false, nmiPending := false
    firqLine := false, irqExt := false, resetLine := false
    mem := []
    via := Via.reset
    params := Params.default
    inputs := []
    draws := 0
    steps := 0 }

end Sys2Proof.Machine
end

