-- ==== Sys2Proof/Machine/Via.lean ====
section
/-! DEFINITION. The VIA 6522: its sixteen registers, interrupt logic, timers, shift register, ports and control lines
(60_exceptions R230 to R264), as functions of the device alone. -/

namespace Sys2Proof.Machine

/-- The interrupt flags, numbered as 60_exceptions R250. -/
inductive ViaFlag where
  | ca2 | ca1 | shift | cb2 | cb1 | timer2 | timer1
deriving DecidableEq, Repr

/-- The bit of IFR and IER a flag has (60_exceptions R250, R252). -/
def viaFlagMask : ViaFlag → BitVec 7
  | .ca2 => 0x01#7
  | .ca1 => 0x02#7
  | .shift => 0x04#7
  | .cb2 => 0x08#7
  | .cb1 => 0x10#7
  | .timer2 => 0x20#7
  | .timer1 => 0x40#7

def viaRaise (f : ViaFlag) (v : Via) : Via := { v with ifr := v.ifr ||| viaFlagMask f }
def viaClear (f : ViaFlag) (v : Via) : Via := { v with ifr := v.ifr &&& ~~~viaFlagMask f }
def viaFlagSet (f : ViaFlag) (v : Via) : Bool := (v.ifr &&& viaFlagMask f) != 0
def viaClearIf (p : Bool) (f : ViaFlag) (v : Via) : Via := if p then viaClear f v else v

/-- `ViaIrq()` (60_exceptions R251). -/
def viaIrq (v : Via) : Bool := (v.ifr &&& v.ier) != 0

/-- PCR[3:1], the CA2 control field (60_exceptions R255). -/
def ca2Control (v : Via) : Nat := (v.pcr.extractLsb' 1 3).toNat
/-- PCR[7:5], the CB2 control field (60_exceptions R255). -/
def cb2Control (v : Via) : Nat := (v.pcr.extractLsb' 5 3).toNat
/-- ACR[4:2], the shift register mode (60_exceptions R254). -/
def shiftMode (v : Via) : Nat := (v.acr.extractLsb' 2 3).toNat

/-- An independent-interrupt input mode, 001 or 011 (60_exceptions R255). -/
def isIndependent (control : Nat) : Bool := control == 1 || control == 3
/-- The handshake and pulse output modes, 100 and 101 (60_exceptions R255). -/
def isHandshake (control : Nat) : Bool := control == 4 || control == 5

/-- The pin levels of port A: an output bit carries ORA, an input bit what the outside drives
(60_exceptions R235). -/
def viaPinsA (v : Via) : Byte := (v.ora &&& v.ddra) ||| (v.pa &&& ~~~v.ddra)

/-- The levels the input bits of port B see. DEDUCED (log 19): with ACR[7] = 1 the PB7 pin carries `pb7Out`. -/
def viaInputB (v : Via) : Byte :=
  if v.acr.getLsbD 7 then (v.pb &&& 0x7F#8) ||| (if v.pb7Out then 0x80#8 else 0x00#8) else v.pb

/-- The pin levels of port B, as the host observes them: an output bit carries ORB, and PB7 carries `pb7Out` when
ACR[7] = 1 (60_exceptions R234, R254). -/
def viaPinsB (v : Via) : Byte :=
  let levels := (v.orb &&& v.ddrb) ||| (v.pb &&& ~~~v.ddrb)
  if v.acr.getLsbD 7 then (levels &&& 0x7F#8) ||| (if v.pb7Out then 0x80#8 else 0x00#8) else levels

/-- The level of pin CB2: what the VIA drives while PCR[7] makes it an output, else what the outside drives. DEDUCED
(log 28) from 60_exceptions R233 and R260. -/
def viaPinCb2 (v : Via) : Bool := if v.pcr.getLsbD 7 then v.cb2Out else v.cb2

/-- What a read of register 1 or 15 returns (60_exceptions R235, R249, R259). DEDUCED (log 15): IRA while latching is on
and IFR[1] is set. -/
def viaReadPortA (v : Via) : Byte :=
  if v.acr.getLsbD 0 && viaFlagSet .ca1 v then v.ira else viaPinsA v

/-- What a read of register 0 returns: ORB in the output bits; in the input bits the pins, or IRB while latching is on and
IFR[4] is set (60_exceptions R234, R259, log 15). -/
def viaReadPortB (v : Via) : Byte :=
  let inputs := if v.acr.getLsbD 1 && viaFlagSet .cb1 v then v.irb else viaInputB v
  (v.orb &&& v.ddrb) ||| (inputs &&& ~~~v.ddrb)

/-- What a read or write of register 1 does besides the data: the flags it clears, the CA2 handshake and the beginning of a
CA2 pulse (60_exceptions R235, R260). -/
def viaAccessA (v : Via) : Via :=
  let v := viaClear .ca1 v
  let v := viaClearIf (!isIndependent (ca2Control v)) .ca2 v
  if isHandshake (ca2Control v) then { v with ca2Out := false, ca2Pulse := ca2Control v == 5 } else v

/-- The flags a read or write of register 0 clears (60_exceptions R234). -/
def viaAccessB (v : Via) : Via :=
  let v := viaClear .cb1 v
  viaClearIf (!isIndependent (cb2Control v)) .cb2 v

/-- The CB2 handshake of a write of register 0, or the beginning of a CB2 pulse (60_exceptions R234, R260). -/
def viaHandshakeB (v : Via) : Via :=
  if isHandshake (cb2Control v) then { v with cb2Out := false, cb2Pulse := cb2Control v == 5 } else v

/-- What a read or write of register 10 does besides the data (60_exceptions R244). -/
def viaAccessSr (v : Via) : Via :=
  let v := viaClear .shift v
  if shiftMode v = 0 then v else { v with srCount := 8, srPhase := false }

/-- Whether a read of a timer's low, or high, counter byte clears its flag (60_exceptions R264). -/
def clearsOnLow (t : TimerClear) : Bool := t != .highOnly
def clearsOnHigh (t : TimerClear) : Bool := t != .lowOnly

/-- `ViaRead(r)` (60_exceptions R231, R234 to R249, R264). -/
def viaRead (t : TimerClear) (r : BitVec 4) (v : Via) : Byte × Via :=
  match r.toNat with
  | 0 => (viaReadPortB v, viaAccessB v)
  | 1 => (viaReadPortA v, viaAccessA v)
  | 2 => (v.ddrb, v)
  | 3 => (v.ddra, v)
  | 4 => (loByte v.t1c, viaClearIf (clearsOnLow t) .timer1 v)
  | 5 => (hiByte v.t1c, viaClearIf (clearsOnHigh t) .timer1 v)
  | 6 => (loByte v.t1l, v)
  | 7 => (hiByte v.t1l, v)
  | 8 => (loByte v.t2c, viaClearIf (clearsOnLow t) .timer2 v)
  | 9 => (hiByte v.t2c, viaClearIf (clearsOnHigh t) .timer2 v)
  | 10 => (v.sr, viaAccessSr v)
  | 11 => (v.acr, v)
  | 12 => (v.pcr, v)
  | 13 => (BitVec.ofBool (viaIrq v) ++ v.ifr, v)
  | 14 => (BitVec.ofBool true ++ v.ier, v)
  | _ => (viaReadPortA v, v)

/-- A write of PCR sets a manual output at once (60_exceptions R246), which ends a pulse on it. DESIGN CHOICE
(log 29): another mode leaves the pulse to end at the next tick. -/
def viaWritePcr (d : Byte) (v : Via) : Via :=
  let v := { v with pcr := d }
  let v := if ca2Control v = 6 then { v with ca2Out := false, ca2Pulse := false }
    else if ca2Control v = 7 then { v with ca2Out := true, ca2Pulse := false } else v
  if cb2Control v = 6 then { v with cb2Out := false, cb2Pulse := false }
  else if cb2Control v = 7 then { v with cb2Out := true, cb2Pulse := false } else v

/-- The write of register 5, which starts timer 1 (60_exceptions R239). -/
def viaStartTimer1 (d : Byte) (v : Via) : Via :=
  let latch := joinBytes d (loByte v.t1l)
  let v := viaClear .timer1
    { v with t1l := latch, t1c := latch, t1Armed := true, t1Reload := false }
  if v.acr.getLsbD 7 then { v with pb7Out := false } else v

/-- The write of IER: bit 7 says whether the 1 bits enable or disable (60_exceptions R248). -/
def viaWriteIer (d : Byte) (v : Via) : Via :=
  let bits : BitVec 7 := d.extractLsb' 0 7
  if d.getLsbD 7 then { v with ier := v.ier ||| bits } else { v with ier := v.ier &&& ~~~bits }

/-- `ViaWrite(r, d)` (60_exceptions R231, R234 to R249). -/
def viaWrite (r : BitVec 4) (d : Byte) (v : Via) : Via :=
  match r.toNat with
  | 0 => viaHandshakeB (viaAccessB { v with orb := d })
  | 1 => viaAccessA { v with ora := d }
  | 2 => { v with ddrb := d }
  | 3 => { v with ddra := d }
  | 4 => { v with t1l := joinBytes (hiByte v.t1l) d }
  | 5 => viaStartTimer1 d v
  | 6 => { v with t1l := joinBytes (hiByte v.t1l) d }
  | 7 => viaClear .timer1 { v with t1l := joinBytes d (loByte v.t1l) }
  | 8 => { v with t2ll := d }
  | 9 => viaClear .timer2 { v with t2c := joinBytes d v.t2ll, t2Armed := true }
  | 10 => viaAccessSr { v with sr := d }
  | 11 => { v with acr := d }
  | 12 => viaWritePcr d v
  | 13 => { v with ifr := v.ifr &&& ~~~(d.extractLsb' 0 7) }
  | 14 => viaWriteIer d v
  | _ => { v with ora := d }

/-- SR moves left by one bit: in from pin CB2, or out to CB2 and round (60_exceptions R258). A shift out writes `cb2Out`
whatever PCR says of CB2: DESIGN CHOICE (log 27), since R260 has PCR hold the line in modes 110 and 111. -/
def viaShiftBit (v : Via) : Via :=
  if shiftMode v < 4 then { v with sr := v.sr.extractLsb' 0 7 ++ BitVec.ofBool (viaPinCb2 v) }
  else { v with cb2Out := v.sr.msb, sr := v.sr.extractLsb' 0 7 ++ BitVec.ofBool v.sr.msb }

/-- One shift of the shift register, counted and flagged but in the free-running mode 100 (60_exceptions R258). -/
def viaShift (v : Via) : Via :=
  let shifted := viaShiftBit v
  if shiftMode v = 4 then shifted
  else
    let counted := { shifted with srCount := v.srCount - 1 }
    if counted.srCount = 0 then viaRaise .shift counted else counted

/-- Whether the shift register is shifting: a mode is selected, and shifts are left to do or the mode is free-running
(60_exceptions R258). DESIGN CHOICE (log 26): the free-running mode 100 shifts also while `srCount` is 0, before register 10
was ever accessed. -/
def viaShifting (v : Via) : Bool :=
  shiftMode v != 0 && (decide (0 < v.srCount) || shiftMode v == 4)

/-- One clock of an internally clocked mode: every second one shifts (60_exceptions R258, log 17). -/
def viaShiftClock (v : Via) : Via :=
  if viaShifting v then
    if v.srPhase then viaShift { v with srPhase := false } else { v with srPhase := true }
  else v

/-- One pulse of the external shift clock on CB1, modes 011 and 111 (60_exceptions R258). -/
def viaExternalShift (v : Via) : Via :=
  if (shiftMode v = 3 || shiftMode v = 7) && viaShifting v then viaShift v else v

/-- Timer 1, one tick (60_exceptions R256). -/
def viaTimer1 (v : Via) : Via :=
  if v.t1Reload then { v with t1c := v.t1l, t1Reload := false }
  else if v.t1c = 0 then
    let freeRun := v.acr.getLsbD 6
    let wrapped := { v with t1c := 0xFFFF#16 }
    let timedOut : Via :=
      if v.t1Armed then
        let flagged := viaRaise .timer1 wrapped
        let flagged := if freeRun then flagged else { flagged with t1Armed := false }
        if v.acr.getLsbD 7 then { flagged with pb7Out := if freeRun then !v.pb7Out else true } else flagged
      else wrapped
    if freeRun then { timedOut with t1Reload := true } else timedOut
  else { v with t1c := v.t1c - 1 }

/-- Whether timer 2 clocks the shift register, modes 001, 100 and 101 (60_exceptions R258). -/
def timer2Shifts (v : Via) : Bool := shiftMode v = 1 || shiftMode v = 4 || shiftMode v = 5

/-- The time-out of timer 2 sets its flag once (60_exceptions R257). -/
def viaTimer2Out (v : Via) : Via :=
  if v.t2Armed then { viaRaise .timer2 v with t2Armed := false } else v

/-- Timer 2, one count (60_exceptions R257). In a mode where it clocks the shift register, a time-out of its low byte
reloads that byte from the latch and is a shift clock (R258). DEDUCED (log 16): the high byte counts on. -/
def viaTimer2 (v : Via) : Via :=
  if timer2Shifts v && loByte v.t2c = 0 then
    let flagged := if v.t2c = 0 then viaTimer2Out v else v
    viaShiftClock { flagged with t2c := joinBytes (hiByte (v.t2c - 1)) v.t2ll }
  else if v.t2c = 0 then viaTimer2Out { v with t2c := 0xFFFF#16 }
  else { v with t2c := v.t2c - 1 }

/-- The end of the pulses that accesses began on CA2 and CB2 (60_exceptions R260). DEDUCED (log 18): the line is high after
one tick. -/
def viaEndPulses (v : Via) : Via :=
  let v := if v.ca2Pulse then { v with ca2Out := true, ca2Pulse := false } else v
  if v.cb2Pulse then { v with cb2Out := true, cb2Pulse := false } else v

/-- One tick of the system clock: timer 1, timer 2 in timed mode, the system-clocked shift modes 010 and 110, the end of
pulses (60_exceptions R256 to R260). -/
def viaTick (v : Via) : Via :=
  let v := viaEndPulses v
  let v := viaTimer1 v
  let v := if v.acr.getLsbD 5 then v else viaTimer2 v
  if shiftMode v = 2 || shiftMode v = 6 then viaShiftClock v else v

/-- `ViaAdvance(n)` (60_exceptions R262). -/
def viaAdvance : Nat → Via → Via
  | 0, v => v
  | n + 1, v => viaAdvance n (viaTick v)

/-- New levels on the pins of port B; a fall of PB6 counts timer 2 in pulse-counting mode (60_exceptions R257). -/
def viaSetPortB (levels : Byte) (v : Via) : Via :=
  let pulse := v.acr.getLsbD 5 && v.pb.getLsbD 6 && !levels.getLsbD 6
  let v := { v with pb := levels }
  if pulse then viaTimer2 v else v

/-- Whether a change of a control line is the edge the polarity bit selects: 0 falling, 1 rising
(60_exceptions R255). -/
def isEdge (rising old new : Bool) : Bool := old != new && new == rising

/-- The active edge of CA1: the flag, the latch of port A, the end of a CA2 handshake (60_exceptions R259, R260). -/
def viaActiveCa1 (v : Via) : Via :=
  let v := if v.acr.getLsbD 0 then { v with ira := viaPinsA v } else v
  let v := viaRaise .ca1 v
  if ca2Control v = 4 then { v with ca2Out := true } else v

/-- The active edge of CB1: the flag, the latch of the input bits of port B, the end of a CB2 handshake
(60_exceptions R259, R260). -/
def viaActiveCb1 (v : Via) : Via :=
  let v := if v.acr.getLsbD 1 then
    { v with irb := (viaInputB v &&& ~~~v.ddrb) ||| (v.irb &&& v.ddrb) } else v
  let v := viaRaise .cb1 v
  if cb2Control v = 4 then { v with cb2Out := true } else v

/-- A new level on CA1 (60_exceptions R260). -/
def viaSetCa1 (level : Bool) (v : Via) : Via :=
  let active := isEdge (v.pcr.getLsbD 0) v.ca1 level
  let v := { v with ca1 := level }
  if active then viaActiveCa1 v else v

/-- A new level on CB1: its edge, and in the externally clocked modes a shift pulse, counted at the rise
(60_exceptions R258, R260, log 17). -/
def viaSetCb1 (level : Bool) (v : Via) : Via :=
  let active := isEdge (v.pcr.getLsbD 4) v.cb1 level
  let pulse := isEdge true v.cb1 level
  let v := { v with cb1 := level }
  let v := if active then viaActiveCb1 v else v
  if pulse then viaExternalShift v else v

/-- A new level on CA2: an edge counts when the line is an input, PCR[3] = 0 (60_exceptions R260). -/
def viaSetCa2 (level : Bool) (v : Via) : Via :=
  let active := !v.pcr.getLsbD 3 && isEdge (v.pcr.getLsbD 2) v.ca2 level
  let v := { v with ca2 := level }
  if active then viaRaise .ca2 v else v

/-- A new level on CB2: an edge counts when the line is an input, PCR[7] = 0 (60_exceptions R260). -/
def viaSetCb2 (level : Bool) (v : Via) : Via :=
  let active := !v.pcr.getLsbD 7 && isEdge (v.pcr.getLsbD 6) v.cb2 level
  let v := { v with cb2 := level }
  if active then viaRaise .cb2 v else v

/-- The reset of the device (60_exceptions R261): the registers it names are cleared, the pins are the outside's, and the
counters, the latches and SR take the values given, which the caller draws. -/
def viaReset (t1c t1l t2c : Word) (t2ll sr : Byte) (v : Via) : Via :=
  { Via.reset with
    t1c := t1c, t1l := t1l, t2c := t2c, t2ll := t2ll, sr := sr
    pa := v.pa, pb := v.pb, ca1 := v.ca1, ca2 := v.ca2, cb1 := v.cb1, cb2 := v.cb2 }

end Sys2Proof.Machine
end

