-- ==== Sys2Proof/Machine/Ops.lean ====
section
/-! DEFINITION. The named operations over the bus, the registers and the stacks, the taking of an interrupt and the return
from one (20_memory R52 to R66, 40_common_operations R138 to R163, R169, 60_exceptions R201 to R220, 70_reset_and_hazards
R280). An operation takes the state last; one that answers a value answers it with the state after. -/

namespace Sys2Proof.Machine

/-! ### Updates of one field -/

def State.putA (v : Byte) (s : State) : State := { s with a := v }
def State.putB (v : Byte) (s : State) : State := { s with b := v }
def State.putX (v : Word) (s : State) : State := { s with x := v }
def State.putY (v : Word) (s : State) : State := { s with y := v }
def State.putU (v : Word) (s : State) : State := { s with u := v }
def State.putS (v : Word) (s : State) : State := { s with s := v }
def State.putPc (v : Word) (s : State) : State := { s with pc := v }
def State.putDp (v : Byte) (s : State) : State := { s with dp := v }
def State.putCc (v : Byte) (s : State) : State := { s with cc := v }
def State.putWait (v : Wait) (s : State) : State := { s with wait := v }
def State.putNmiArmed (v : Bool) (s : State) : State := { s with nmiArmed := v }
def State.putNmiPending (v : Bool) (s : State) : State := { s with nmiPending := v }
def State.putFirqLine (v : Bool) (s : State) : State := { s with firqLine := v }
def State.putIrqExt (v : Bool) (s : State) : State := { s with irqExt := v }
def State.putResetLine (v : Bool) (s : State) : State := { s with resetLine := v }
def State.putMem (v : List Host.Cell) (s : State) : State := { s with mem := v }
def State.putVia (v : Via) (s : State) : State := { s with via := v }
def State.putInputs (v : List (List HostEvent)) (s : State) : State := { s with inputs := v }
def State.putDraws (v : Nat) (s : State) : State := { s with draws := v }
def State.putSteps (v : Nat) (s : State) : State := { s with steps := v }

/-! ### Free values (00_scope R13) -/

/-- `draw(1)`: a fresh free bit (log 8). -/
def drawBit (s : State) : Bool × State := (Config.freeBit s.draws, s.putDraws (s.draws + 1))

/-- `draw(8)`: a fresh free byte (log 9). -/
def drawByte (s : State) : Byte × State := (Config.freeByte s.draws, s.putDraws (s.draws + 1))

/-- A fresh free word: two free bytes. -/
def drawWord (s : State) : Word × State :=
  let h := drawByte s
  let l := drawByte h.2
  (joinBytes h.1 l.1, l.2)

/-! ### The bus (20_memory R52 to R57, R60, R64) -/

/-- The kind MemMap gives an address: of the first region that holds it. -/
def regionKind : List Region → Nat → RegionKind
  | [], _ => .unmapped
  | r :: rest, a => if r.base ≤ a && a < r.base + r.size then r.kind else regionKind rest a

/-- The sixteen addresses 0xD000 to 0xD00F are the VIA whatever MemMap says (20_memory R52, R62). -/
def inViaWindow (a : Word) : Bool := decide (0xD000 ≤ a.toNat) && decide (a.toNat ≤ 0xD00F)

/-- What answers at an address (20_memory R52). -/
def addressKind (p : Params) (a : Word) : RegionKind :=
  if inViaWindow a then .via else regionKind p.memMap a.toNat

/-- The VIA register an address selects: `addr and 0x000F` (60_exceptions R231). -/
def viaRegister (a : Word) : BitVec 4 := a.extractLsb' 0 4

/-- The ticks that have elapsed since the access to the VIA before this one, or since the step began: as many as a free
value says (20_memory R59, R71, 70_reset_and_hazards R286 item 5; log 7). -/
def elapse (s : State) : State :=
  (s.putVia (viaAdvance (Config.accessTicks s.draws) s.via)).putDraws (s.draws + 1)

/-- `MemRead(a, 1)` (00_scope R11, 20_memory R52, R60, R64). An access to the VIA sees the ticks elapsed before it. -/
def memRead8 (a : Word) (s : State) : Byte × State :=
  match addressKind s.params a with
  | .ram => (Memory.read s.mem a.toNat, s)
  | .rom => (Memory.read s.mem a.toNat, s)
  | .via =>
    let s := elapse s
    let r := viaRead s.params.timerClear (viaRegister a) s.via
    (r.1, s.putVia r.2)
  | .unmapped => drawByte s

/-- `MemWrite(a, 1, v)` (00_scope R11, 20_memory R52, R60, R64). An access to the VIA comes after the ticks elapsed before
it. -/
def memWrite8 (a : Word) (v : Byte) (s : State) : State :=
  match addressKind s.params a with
  | .ram => s.putMem (Memory.write s.mem a.toNat v)
  | .rom => s
  | .via =>
    let s := elapse s
    s.putVia (viaWrite (viaRegister a) v s.via)
  | .unmapped => s

/-- `MemRead(a, 2)`: two byte reads, the high byte first; the second address wraps (20_memory R53, R56). -/
def memRead16 (a : Word) (s : State) : Word × State :=
  let h := memRead8 a s
  let l := memRead8 (a + 1) h.2
  (joinBytes h.1 l.1, l.2)

/-- `MemWrite(a, 2, v)`: two byte writes, the high byte first; the second address wraps (20_memory R53, R57). -/
def memWrite16 (a : Word) (v : Word) (s : State) : State :=
  memWrite8 (a + 1) (loByte v) (memWrite8 a (hiByte v) s)

/-! ### Registers -/

/-- D, the pair A:B (10_state R22). -/
def State.d (s : State) : Word := joinBytes s.a s.b

/-- `D <- v` (00_scope R10, 10_state R22). -/
def State.putD (v : Word) (s : State) : State := (s.putA (hiByte v)).putB (loByte v)

/-- A load of S with a new value, which arms NMI (60_exceptions R206). -/
def State.loadS (v : Word) (s : State) : State := (s.putS v).putNmiArmed true

/-- The two accumulators an 8-bit instruction names (10_state R21). -/
inductive Acc where
  | a | b
deriving DecidableEq, Repr

def readAcc (r : Acc) (s : State) : Byte :=
  match r with
  | .a => s.a
  | .b => s.b

def writeAcc (r : Acc) (v : Byte) (s : State) : State :=
  match r with
  | .a => s.putA v
  | .b => s.putB v

/-- The 16-bit registers that 16-bit instructions load, store and compare. -/
inductive Reg16 where
  | d | x | y | u | s
deriving DecidableEq, Repr

def readReg16 (r : Reg16) (s : State) : Word :=
  match r with
  | .d => s.d
  | .x => s.x
  | .y => s.y
  | .u => s.u
  | .s => s.s

/-- A load of a 16-bit register; a load of S arms NMI (60_exceptions R206). -/
def loadReg16 (r : Reg16) (v : Word) (s : State) : State :=
  match r with
  | .d => s.putD v
  | .x => s.putX v
  | .y => s.putY v
  | .u => s.putU v
  | .s => s.loadS v

/-- The base register of an indexed address (30_encoding R95). -/
def readIndex (r : IdxReg) (s : State) : Word :=
  match r with
  | .x => s.x
  | .y => s.y
  | .u => s.u
  | .s => s.s

/-- The step of an auto-increment or auto-decrement mode; on S it does not arm NMI (30_encoding R95). -/
def stepIndex (r : IdxReg) (v : Word) (s : State) : State :=
  match r with
  | .x => s.putX v
  | .y => s.putY v
  | .u => s.putU v
  | .s => s.putS v

/-- `RegRead(code)` for an 8-bit register (40_common_operations R163). A 16-bit register gives its low byte, which no
legal pair asks for. -/
def regRead8 (r : RegCode) (s : State) : Byte :=
  match r with
  | .a => s.a
  | .b => s.b
  | .cc => s.cc
  | .dp => s.dp
  | .d => loByte s.d
  | .x => loByte s.x
  | .y => loByte s.y
  | .u => loByte s.u
  | .s => loByte s.s
  | .pc => loByte s.pc

/-- `RegWrite(code, v)` for an 8-bit register (40_common_operations R163). A 16-bit register is not written, which no
legal pair asks for. -/
def regWrite8 (r : RegCode) (v : Byte) (s : State) : State :=
  match r with
  | .a => s.putA v
  | .b => s.putB v
  | .cc => s.putCc v
  | .dp => s.putDp v
  | .d | .x | .y | .u | .s | .pc => s

/-- `RegRead(code)` for a 16-bit register; PC is the address of the next instruction (40_common_operations R163). An 8-bit
register gives its zero extension, which no legal pair asks for. -/
def regRead16 (r : RegCode) (s : State) : Word :=
  match r with
  | .d => s.d
  | .x => s.x
  | .y => s.y
  | .u => s.u
  | .s => s.s
  | .pc => s.pc
  | .a => zeroExtend8 s.a
  | .b => zeroExtend8 s.b
  | .cc => zeroExtend8 s.cc
  | .dp => zeroExtend8 s.dp

/-- `RegWrite(code, v)` for a 16-bit register: PC is a control transfer, S arms NMI (40_common_operations R163). An 8-bit
register is not written, which no legal pair asks for. -/
def regWrite16 (r : RegCode) (v : Word) (s : State) : State :=
  match r with
  | .d => s.putD v
  | .x => s.putX v
  | .y => s.putY v
  | .u => s.putU v
  | .s => s.loadS v
  | .pc => s.putPc v
  | .a | .b | .cc | .dp => s

/-! ### Flags -/

/-- What an effect makes of a flag that holds `old`, and the state after: an undefined flag takes a free value
(40_common_operations, `u`; log 8). -/
def flagValue (e : FlagEffect) (old : Bool) (s : State) : Bool × State :=
  match e with
  | .keep => (old, s)
  | .put b => (b, s)
  | .undef => drawBit s

/-- `CC <- CC with the flags`: H, N, Z, V and C as given, E, F and I unchanged. -/
def putFlags (f : FlagEffects) (s : State) : State :=
  let h := flagValue f.h (ccH s.cc) s
  let n := flagValue f.n (ccN s.cc) h.2
  let z := flagValue f.z (ccZ s.cc) n.2
  let v := flagValue f.v (ccV s.cc) z.2
  let c := flagValue f.c (ccC s.cc) v.2
  c.2.putCc (putH h.1 (putN n.1 (putZ z.1 (putV v.1 (putC c.1 s.cc)))))

/-! ### Stacks (40_common_operations R138 to R161) -/

/-- The stack pointer a stack operation uses (10_state R23). -/
inductive StackReg where
  | s | u
deriving DecidableEq, Repr

/-- The value of a stack pointer. -/
def stackPointer (k : StackReg) (s : State) : Word :=
  match k with
  | .s => s.s
  | .u => s.u

/-- A step of a stack pointer by a push or a pull; it does not arm NMI (60_exceptions R206). -/
def moveStack (k : StackReg) (v : Word) (s : State) : State :=
  match k with
  | .s => s.putS v
  | .u => s.putU v

/-- The other stack pointer, which mask bit 6 names (30_encoding R100). -/
def otherStack : StackReg → StackReg
  | .s => .u
  | .u => .s

/-- A pull into a stack pointer: into S it is a load and arms NMI (60_exceptions R206). -/
def loadStack (k : StackReg) (v : Word) (s : State) : State :=
  match k with
  | .s => s.loadS v
  | .u => s.putU v

/-- `Push8(sp, v)` (40_common_operations R138). -/
def push8 (k : StackReg) (v : Byte) (s : State) : State :=
  let sp := stackPointer k s - 1
  memWrite8 sp v (moveStack k sp s)

/-- `Push16(sp, v)`: the low byte first (40_common_operations R139). -/
def push16 (k : StackReg) (v : Word) (s : State) : State :=
  push8 k (hiByte v) (push8 k (loByte v) s)

/-- `Pull8(sp)`: the read comes before the step (40_common_operations R138). -/
def pull8 (k : StackReg) (s : State) : Byte × State :=
  let sp := stackPointer k s
  let r := memRead8 sp s
  (r.1, moveStack k (sp + 1) r.2)

/-- `Pull16(sp)`: the high byte first (40_common_operations R139). -/
def pull16 (k : StackReg) (s : State) : Word × State :=
  let h := pull8 k s
  let l := pull8 k h.2
  (joinBytes h.1 l.1, l.2)

/-- A step of a sequence that a mask bit turns on. -/
def when (bit : Bool) (f : State → State) (s : State) : State := if bit then f s else s

/-- `PushRegs(sp, other, mask)` (40_common_operations R160). -/
def pushRegs (k : StackReg) (mask : Byte) (s : State) : State :=
  let s := when (mask.getLsbD 7) (fun s => push16 k s.pc s) s
  let s := when (mask.getLsbD 6) (fun s => push16 k (stackPointer (otherStack k) s) s) s
  let s := when (mask.getLsbD 5) (fun s => push16 k s.y s) s
  let s := when (mask.getLsbD 4) (fun s => push16 k s.x s) s
  let s := when (mask.getLsbD 3) (fun s => push8 k s.dp s) s
  let s := when (mask.getLsbD 2) (fun s => push8 k s.b s) s
  let s := when (mask.getLsbD 1) (fun s => push8 k s.a s) s
  when (mask.getLsbD 0) (fun s => push8 k s.cc s) s

/-- Pull a byte into a register. -/
def pullInto8 (k : StackReg) (put : Byte → State → State) (s : State) : State :=
  let r := pull8 k s
  put r.1 r.2

/-- Pull a word into a register. -/
def pullInto16 (k : StackReg) (put : Word → State → State) (s : State) : State :=
  let r := pull16 k s
  put r.1 r.2

/-- `PullRegs(sp, other, mask)` (40_common_operations R161). -/
def pullRegs (k : StackReg) (mask : Byte) (s : State) : State :=
  let s := when (mask.getLsbD 0) (pullInto8 k State.putCc) s
  let s := when (mask.getLsbD 1) (pullInto8 k State.putA) s
  let s := when (mask.getLsbD 2) (pullInto8 k State.putB) s
  let s := when (mask.getLsbD 3) (pullInto8 k State.putDp) s
  let s := when (mask.getLsbD 4) (pullInto16 k State.putX) s
  let s := when (mask.getLsbD 5) (pullInto16 k State.putY) s
  let s := when (mask.getLsbD 6) (pullInto16 k (loadStack (otherStack k))) s
  when (mask.getLsbD 7) (pullInto16 k State.putPc) s

/-! ### Taking an interrupt, and returning from one (60_exceptions R201 to R215) -/

/-- The interrupts that are entered: three lines and three instructions (60_exceptions R201). -/
inductive Interrupt where
  | nmi | firq | irq | swi | swi2 | swi3
deriving DecidableEq, Repr

/-- The address of an interrupt's vector (60_exceptions R201, R202). -/
def vectorAddress : Interrupt → Word
  | .swi3 => 0xFFF2#16
  | .swi2 => 0xFFF4#16
  | .firq => 0xFFF6#16
  | .irq => 0xFFF8#16
  | .swi => 0xFFFA#16
  | .nmi => 0xFFFC#16

/-- The address of the reset vector (60_exceptions R202). -/
def resetVector : Word := 0xFFFE#16

/-- The masks an interrupt sets on entry, after stacking (60_exceptions R201, R209 to R212). -/
def maskOnEntry (k : Interrupt) (cc : Byte) : Byte :=
  match k with
  | .nmi | .firq | .swi => putF true (putI true cc)
  | .irq => putI true cc
  | .swi2 | .swi3 => cc

/-- `PushEntire()`, the twelve bytes of the entire frame (60_exceptions R207). -/
def pushEntire (s : State) : State := pushRegs .s 0xFF#8 s

/-- The frame an interrupt stacks: the fast frame with E = 0 for FIRQ, the entire frame with E = 1 for the others
(60_exceptions R207 to R212). -/
def stackFrame (k : Interrupt) (s : State) : State :=
  match k with
  | .firq =>
    let s := s.putCc (putE false s.cc)
    push8 .s s.cc (push16 .s s.pc s)
  | .nmi | .irq | .swi | .swi2 | .swi3 => pushEntire (s.putCc (putE true s.cc))

/-- `PC <- MemRead(v, 2)` (60_exceptions R202). -/
def loadVector (v : Word) (s : State) : State :=
  let r := memRead16 v s
  r.2.putPc r.1

/-- Taking an interrupt: the frame if `stack`, the masks, `nmi_pending` for NMI, the vector (60_exceptions R209 to R212,
R220). -/
def enterInterrupt (k : Interrupt) (stack : Bool) (s : State) : State :=
  let s := if stack then stackFrame k s else s
  let s := s.putCc (maskOnEntry k s.cc)
  let s := if k = .nmi then s.putNmiPending false else s
  loadVector (vectorAddress k) s

/-- `RTI`: CC is pulled; if its E is 1, A, B, DP, X, Y and U; then PC (60_exceptions R215, 42_ops_20_3F R1059). -/
def returnFromInterrupt (s : State) : State :=
  let s := pullInto8 .s State.putCc s
  let s := if ccE s.cc then pullRegs .s 0x7E#8 s else s
  pullInto16 .s State.putPc s

/-- `Reset()` (70_reset_and_hazards R280). The registers R280 does not name keep what they held; the VIA's counters,
latches and SR are drawn (60_exceptions R261, log 12). -/
def resetSequence (s : State) : State :=
  let s := s.putDp 0x00#8
  let s := s.putCc (putF true (putI true s.cc))
  let s := s.putNmiArmed false
  let s := s.putNmiPending false
  let s := s.putWait .running
  let t1c := drawWord s
  let t1l := drawWord t1c.2
  let t2c := drawWord t1l.2
  let t2ll := drawByte t2c.2
  let sr := drawByte t2ll.2
  let s := sr.2.putVia (viaReset t1c.1 t1l.1 t2c.1 t2ll.1 sr.1 s.via)
  loadVector resetVector s

end Sys2Proof.Machine
end

