-- ==== Sys2Proof/Machine/Operands.lean ====
section
/-! DEFINITION. The operand forms: effective addresses, operands in memory and in the instruction, branch targets
(40_common_operations R133 to R137, 30_encoding R83 to R101), and the shapes of instruction built on them: read-modify-write
(R169), accumulator and 16-bit arithmetic, loads, stores, LEA, branches and calls.

An effective address is a pair: the address, and the state after the address was formed (an auto mode steps its base
register, an indirect mode reads its pointer). The instruction's bytes have been fetched: PC is the address of the next
instruction (10_state R24). -/

namespace Sys2Proof.Machine

/-- `EA_direct()` (40_common_operations R133). -/
def eaDirect (dd : Byte) (s : State) : Word × State := (joinBytes s.dp dd, s)

/-- `EA_extended()` (40_common_operations R134). -/
def eaExtended (ea : Word) (s : State) : Word × State := (ea, s)

/-- The address of an indexed form before indirection, with the step of the auto modes (30_encoding R93, R94,
40_common_operations R135). -/
def indexedBase (ix : Indexed) (s : State) : Word × State :=
  match ix with
  | .off5 r n => (readIndex r s + signExtend5 n, s)
  | .inc1 r => (readIndex r s, stepIndex r (readIndex r s + 1) s)
  | .inc2 r _ => (readIndex r s, stepIndex r (readIndex r s + 2) s)
  | .dec1 r => (readIndex r s - 1, stepIndex r (readIndex r s - 1) s)
  | .dec2 r _ => (readIndex r s - 2, stepIndex r (readIndex r s - 2) s)
  | .plain r _ => (readIndex r s, s)
  | .accB r _ => (readIndex r s + signExtend8 s.b, s)
  | .accA r _ => (readIndex r s + signExtend8 s.a, s)
  | .off8 r n _ => (readIndex r s + signExtend8 n, s)
  | .off16 r n _ => (readIndex r s + n, s)
  | .accD r _ => (readIndex r s + s.d, s)
  | .pcr8 _ n _ => (s.pc + signExtend8 n, s)
  | .pcr16 _ n _ => (s.pc + n, s)
  | .extInd n => (n, s)

/-- Whether an indexed form is indirect (30_encoding R94, R96). -/
def isIndirect : Indexed → Bool
  | .off5 _ _ | .inc1 _ | .dec1 _ => false
  | .inc2 _ i | .dec2 _ i | .plain _ i | .accB _ i | .accA _ i | .accD _ i => i
  | .off8 _ _ i | .off16 _ _ i | .pcr8 _ _ i | .pcr16 _ _ i => i
  | .extInd _ => true

/-- `EA_indexed()` (40_common_operations R135, 30_encoding R96). -/
def eaIndexed (ix : Indexed) (s : State) : Word × State :=
  let e := indexedBase ix s
  if isIndirect ix then memRead16 e.1 e.2 else e

/-- The byte operand at an effective address. -/
def operand8 (e : Word × State) : Byte × State := memRead8 e.1 e.2

/-- The word operand at an effective address. -/
def operand16 (e : Word × State) : Word × State := memRead16 e.1 e.2

/-! ### Read-modify-write -/

/-- An 8-bit function of the operand and CC.C, with its flags. -/
abbrev Unary8 := Byte → Bool → Byte × FlagEffects

def negOp : Unary8 := fun m _ => neg8 m
def comOp : Unary8 := fun m _ => com8 m
def lsrOp : Unary8 := fun m _ => lsr8 m
def asrOp : Unary8 := fun m _ => asr8 m
def aslOp : Unary8 := fun m _ => asl8 m
def decOp : Unary8 := fun m _ => dec8 m
def incOp : Unary8 := fun m _ => inc8 m
def clrOp : Unary8 := fun _ _ => clr8

/-- A read-modify-write of memory: one read, one write of the same address, then the flags (40_common_operations
R169). -/
def modifyMem (f : Unary8) (e : Word × State) : State :=
  let m := memRead8 e.1 e.2
  let r := f m.1 (ccC m.2.cc)
  putFlags r.2 (memWrite8 e.1 r.1 m.2)

/-- `TST` on memory: the read and no write (40_common_operations R154, R169). -/
def testMem (e : Word × State) : State :=
  let m := memRead8 e.1 e.2
  putFlags (tstFlags8 m.1) m.2

/-- The same functions on an accumulator (43_accumulator_40_5F). -/
def modifyAcc (f : Unary8) (r : Acc) (s : State) : State :=
  let res := f (readAcc r s) (ccC s.cc)
  putFlags res.2 (writeAcc r res.1 s)

/-- `TSTA`, `TSTB`. -/
def testAcc (r : Acc) (s : State) : State := putFlags (tstFlags8 (readAcc r s)) s

/-! ### 8-bit arithmetic and logic on an accumulator -/

/-- An 8-bit function of the accumulator, the operand and CC.C, with its flags. -/
abbrev Binary8 := Byte → Byte → Bool → Byte × FlagEffects

def addOp : Binary8 := fun a m _ => add8 a m false
def adcOp : Binary8 := fun a m c => add8 a m c
def subOp : Binary8 := fun a m _ => sub8 a m false
def sbcOp : Binary8 := fun a m c => sub8 a m c
def andOp : Binary8 := fun a m _ => and8 a m
def orOp : Binary8 := fun a m _ => or8 a m
def eorOp : Binary8 := fun a m _ => eor8 a m

/-- `acc <- f(acc, m)` and the flags. -/
def operateAcc (f : Binary8) (r : Acc) (m : Byte × State) : State :=
  let res := f (readAcc r m.2) m.1 (ccC m.2.cc)
  putFlags res.2 (writeAcc r res.1 m.2)

/-- `CMP` and `BIT`: the flags of f(acc, m), the result discarded. -/
def compareAcc (f : Binary8) (r : Acc) (m : Byte × State) : State :=
  putFlags (f (readAcc r m.2) m.1 (ccC m.2.cc)).2 m.2

/-- `LDA`, `LDB` (40_common_operations R144). -/
def loadAcc (r : Acc) (m : Byte × State) : State :=
  putFlags (logicFlags8 m.1) (writeAcc r m.1 m.2)

/-- `STA`, `STB`: the flags of the value stored (40_common_operations R144). -/
def storeAcc (r : Acc) (e : Word × State) : State :=
  let v := readAcc r e.2
  memWrite8 e.1 v (putFlags (logicFlags8 v) e.2)

/-- `DAA` (40_common_operations R164). -/
def decimalAdjust (s : State) : State :=
  let res := daa s.a (ccH s.cc) (ccC s.cc)
  putFlags res.2 (s.putA res.1)

/-! ### 16-bit arithmetic, loads and stores -/

/-- `ADDD`, `SUBD`. -/
def operateD (f : Word → Word → Word × FlagEffects) (m : Word × State) : State :=
  let res := f m.2.d m.1
  putFlags res.2 (m.2.putD res.1)

/-- `MUL`: D takes the product of A and B (40_common_operations R165). -/
def multiply (s : State) : State :=
  let res := mul s.params.mulFlags s.a s.b
  putFlags res.2 (s.putD res.1)

/-- `SEX`: A takes the sign of B (41_ops_00_1F R1029). -/
def signExtendB (s : State) : State :=
  let t := s.putA (if s.b.msb then 0xFF#8 else 0x00#8)
  putFlags (sexFlags t.d) t

/-- The 16-bit compares (40_common_operations R157). -/
def compare16 (r : Reg16) (m : Word × State) : State :=
  putFlags (sub16 (readReg16 r m.2) m.1).2 m.2

/-- The 16-bit loads (40_common_operations R158). -/
def load16 (r : Reg16) (m : Word × State) : State :=
  putFlags (ldstFlags16 m.1) (loadReg16 r m.1 m.2)

/-- The 16-bit stores; the register is read after an auto mode has stepped it (40_common_operations R135, R158). -/
def store16 (r : Reg16) (e : Word × State) : State :=
  let v := readReg16 r e.2
  memWrite16 e.1 v (putFlags (ldstFlags16 v) e.2)

/-- `LEAX`, `LEAY`: Z from the address (42_ops_20_3F R1048, R1049). -/
def leaWithZ (r : Reg16) (e : Word × State) : State := putFlags (leaFlags e.1) (loadReg16 r e.1 e.2)

/-- `LEAS`, `LEAU`: no flag (42_ops_20_3F R1050, R1051). -/
def leaNoFlags (r : Reg16) (e : Word × State) : State := loadReg16 r e.1 e.2

/-! ### Register transfers -/

/-- `EXG` on a pair of one width: both registers are read before either is written; the first is written first
(40_common_operations R163). -/
def exchangeRegs (r1 r2 : RegCode) (s : State) : State :=
  if isWide r1 then regWrite16 r2 (regRead16 r1 s) (regWrite16 r1 (regRead16 r2 s) s)
  else regWrite8 r2 (regRead8 r1 s) (regWrite8 r1 (regRead8 r2 s) s)

/-- `TFR` on a pair of one width: the second register takes the value of the first (40_common_operations R163). -/
def transferReg (r1 r2 : RegCode) (s : State) : State :=
  if isWide r1 then regWrite16 r2 (regRead16 r1 s) s else regWrite8 r2 (regRead8 r1 s) s

/-! ### Waiting -/

/-- `CWAI`: the mask, E, the entire frame, then the wait (60_exceptions R218). -/
def clearAndWait (ii : Byte) (s : State) : State :=
  (pushEntire (s.putCc (putE true (s.cc &&& ii)))).putWait .cwai

/-! ### Control transfer -/

/-- The target of a short branch: `PC + sext_16(rr)`, PC the next instruction (40_common_operations R136). -/
def relTarget8 (rr : Byte) (s : State) : Word := s.pc + signExtend8 rr

/-- The target of a long branch (40_common_operations R137). -/
def relTarget16 (d : Word) (s : State) : Word := s.pc + d

/-- A conditional branch (40_common_operations R159). -/
def branch (c : Cond) (target : Word) (s : State) : State :=
  if condHolds c s.cc then s.putPc target else s

/-- `JMP`: the effective address is the target. -/
def jumpTo (e : Word × State) : State := e.2.putPc e.1

/-- A call: push the address of the next instruction on S, then transfer (45_acc_a_80_9F R1157, 41_ops_00_1F R1023). The
effective address is computed before the push. -/
def callTo (e : Word × State) : State := (push16 .s e.2.pc e.2).putPc e.1

end Sys2Proof.Machine
end

