-- ==== Sys2Proof/Machine/Accumulator.lean ====
section
/-! DEFINITION. NEG, COM, LSR, ROR, ASR, ASL, ROL, DEC, INC, TST and CLR on the accumulators (43_accumulator_40_5F). -/

namespace Sys2Proof.Machine

/-- `NEGA inh` (43_accumulator_40_5F R1064). -/
def execNega (s : State) : Host.Outcome State Fault Refusal :=
  .next (modifyAcc negOp .a s)

/-- `COMA inh` (43_accumulator_40_5F R1067). -/
def execComa (s : State) : Host.Outcome State Fault Refusal :=
  .next (modifyAcc comOp .a s)

/-- `LSRA inh` (43_accumulator_40_5F R1068). -/
def execLsra (s : State) : Host.Outcome State Fault Refusal :=
  .next (modifyAcc lsrOp .a s)

/-- `RORA inh` (43_accumulator_40_5F R1070). -/
def execRora (s : State) : Host.Outcome State Fault Refusal :=
  .next (modifyAcc ror8 .a s)

/-- `ASRA inh` (43_accumulator_40_5F R1071). -/
def execAsra (s : State) : Host.Outcome State Fault Refusal :=
  .next (modifyAcc asrOp .a s)

/-- `ASLA inh` (43_accumulator_40_5F R1072). -/
def execAsla (s : State) : Host.Outcome State Fault Refusal :=
  .next (modifyAcc aslOp .a s)

/-- `ROLA inh` (43_accumulator_40_5F R1073). -/
def execRola (s : State) : Host.Outcome State Fault Refusal :=
  .next (modifyAcc rol8 .a s)

/-- `DECA inh` (43_accumulator_40_5F R1074). -/
def execDeca (s : State) : Host.Outcome State Fault Refusal :=
  .next (modifyAcc decOp .a s)

/-- `INCA inh` (43_accumulator_40_5F R1076). -/
def execInca (s : State) : Host.Outcome State Fault Refusal :=
  .next (modifyAcc incOp .a s)

/-- `TSTA inh` (43_accumulator_40_5F R1077). -/
def execTsta (s : State) : Host.Outcome State Fault Refusal :=
  .next (testAcc .a s)

/-- `CLRA inh` (43_accumulator_40_5F R1079). -/
def execClra (s : State) : Host.Outcome State Fault Refusal :=
  .next (modifyAcc clrOp .a s)

/-- `NEGB inh` (43_accumulator_40_5F R1080). -/
def execNegb (s : State) : Host.Outcome State Fault Refusal :=
  .next (modifyAcc negOp .b s)

/-- `COMB inh` (43_accumulator_40_5F R1083). -/
def execComb (s : State) : Host.Outcome State Fault Refusal :=
  .next (modifyAcc comOp .b s)

/-- `LSRB inh` (43_accumulator_40_5F R1084). -/
def execLsrb (s : State) : Host.Outcome State Fault Refusal :=
  .next (modifyAcc lsrOp .b s)

/-- `RORB inh` (43_accumulator_40_5F R1086). -/
def execRorb (s : State) : Host.Outcome State Fault Refusal :=
  .next (modifyAcc ror8 .b s)

/-- `ASRB inh` (43_accumulator_40_5F R1087). -/
def execAsrb (s : State) : Host.Outcome State Fault Refusal :=
  .next (modifyAcc asrOp .b s)

/-- `ASLB inh` (43_accumulator_40_5F R1088). -/
def execAslb (s : State) : Host.Outcome State Fault Refusal :=
  .next (modifyAcc aslOp .b s)

/-- `ROLB inh` (43_accumulator_40_5F R1089). -/
def execRolb (s : State) : Host.Outcome State Fault Refusal :=
  .next (modifyAcc rol8 .b s)

/-- `DECB inh` (43_accumulator_40_5F R1090). -/
def execDecb (s : State) : Host.Outcome State Fault Refusal :=
  .next (modifyAcc decOp .b s)

/-- `INCB inh` (43_accumulator_40_5F R1092). -/
def execIncb (s : State) : Host.Outcome State Fault Refusal :=
  .next (modifyAcc incOp .b s)

/-- `TSTB inh` (43_accumulator_40_5F R1093). -/
def execTstb (s : State) : Host.Outcome State Fault Refusal :=
  .next (testAcc .b s)

/-- `CLRB inh` (43_accumulator_40_5F R1095). -/
def execClrb (s : State) : Host.Outcome State Fault Refusal :=
  .next (modifyAcc clrOp .b s)

end Sys2Proof.Machine
end

