-- ==== Sys2Proof/Machine/Arithmetic16.lean ====
section
/-! DEFINITION. 16-bit arithmetic: ADDD, SUBD, the 16-bit compares, MUL, SEX, ABX (files 41, 42, 45 to 49). -/

namespace Sys2Proof.Machine

/-- `SEX inh` (41_ops_00_1F R1029). -/
def execSex (s : State) : Host.Outcome State Fault Refusal :=
  .next (signExtendB s)

/-- `ABX inh` (42_ops_20_3F R1058). -/
def execAbx (s : State) : Host.Outcome State Fault Refusal :=
  .next (s.putX (s.x + zeroExtend8 s.b))

/-- `MUL inh` (42_ops_20_3F R1061). -/
def execMul (s : State) : Host.Outcome State Fault Refusal :=
  .next (multiply s)

/-- `SUBD #` (45_acc_a_80_9F R1131). -/
def execSubdImm (imm : Word) (s : State) : Host.Outcome State Fault Refusal :=
  .next (operateD sub16 (imm, s))

/-- `CMPX #` (45_acc_a_80_9F R1140). -/
def execCmpxImm (imm : Word) (s : State) : Host.Outcome State Fault Refusal :=
  .next (compare16 .x (imm, s))

/-- `SUBD direct` (45_acc_a_80_9F R1147). -/
def execSubdDirect (dd : Byte) (s : State) : Host.Outcome State Fault Refusal :=
  .next (operateD sub16 (operand16 (eaDirect dd s)))

/-- `CMPX direct` (45_acc_a_80_9F R1156). -/
def execCmpxDirect (dd : Byte) (s : State) : Host.Outcome State Fault Refusal :=
  .next (compare16 .x (operand16 (eaDirect dd s)))

/-- `SUBD idx` (46_acc_a_A0_BF R1163). -/
def execSubdIdx (ix : Indexed) (s : State) : Host.Outcome State Fault Refusal :=
  .next (operateD sub16 (operand16 (eaIndexed ix s)))

/-- `CMPX idx` (46_acc_a_A0_BF R1172). -/
def execCmpxIdx (ix : Indexed) (s : State) : Host.Outcome State Fault Refusal :=
  .next (compare16 .x (operand16 (eaIndexed ix s)))

/-- `SUBD ext` (46_acc_a_A0_BF R1179). -/
def execSubdExt (ea : Word) (s : State) : Host.Outcome State Fault Refusal :=
  .next (operateD sub16 (operand16 (eaExtended ea s)))

/-- `CMPX ext` (46_acc_a_A0_BF R1188). -/
def execCmpxExt (ea : Word) (s : State) : Host.Outcome State Fault Refusal :=
  .next (compare16 .x (operand16 (eaExtended ea s)))

/-- `ADDD #` (47_acc_b_C0_DF R1195). -/
def execAdddImm (imm : Word) (s : State) : Host.Outcome State Fault Refusal :=
  .next (operateD add16 (imm, s))

/-- `ADDD direct` (47_acc_b_C0_DF R1211). -/
def execAdddDirect (dd : Byte) (s : State) : Host.Outcome State Fault Refusal :=
  .next (operateD add16 (operand16 (eaDirect dd s)))

/-- `ADDD idx` (48_acc_b_E0_FF R1227). -/
def execAdddIdx (ix : Indexed) (s : State) : Host.Outcome State Fault Refusal :=
  .next (operateD add16 (operand16 (eaIndexed ix s)))

/-- `ADDD ext` (48_acc_b_E0_FF R1243). -/
def execAdddExt (ea : Word) (s : State) : Host.Outcome State Fault Refusal :=
  .next (operateD add16 (operand16 (eaExtended ea s)))

/-- `CMPD #` (49_pages_10_11 R2131). -/
def execCmpdImm (imm : Word) (s : State) : Host.Outcome State Fault Refusal :=
  .next (compare16 .d (imm, s))

/-- `CMPY #` (49_pages_10_11 R2140). -/
def execCmpyImm (imm : Word) (s : State) : Host.Outcome State Fault Refusal :=
  .next (compare16 .y (imm, s))

/-- `CMPD direct` (49_pages_10_11 R2147). -/
def execCmpdDirect (dd : Byte) (s : State) : Host.Outcome State Fault Refusal :=
  .next (compare16 .d (operand16 (eaDirect dd s)))

/-- `CMPY direct` (49_pages_10_11 R2156). -/
def execCmpyDirect (dd : Byte) (s : State) : Host.Outcome State Fault Refusal :=
  .next (compare16 .y (operand16 (eaDirect dd s)))

/-- `CMPD idx` (49_pages_10_11 R2163). -/
def execCmpdIdx (ix : Indexed) (s : State) : Host.Outcome State Fault Refusal :=
  .next (compare16 .d (operand16 (eaIndexed ix s)))

/-- `CMPY idx` (49_pages_10_11 R2172). -/
def execCmpyIdx (ix : Indexed) (s : State) : Host.Outcome State Fault Refusal :=
  .next (compare16 .y (operand16 (eaIndexed ix s)))

/-- `CMPD ext` (49_pages_10_11 R2179). -/
def execCmpdExt (ea : Word) (s : State) : Host.Outcome State Fault Refusal :=
  .next (compare16 .d (operand16 (eaExtended ea s)))

/-- `CMPY ext` (49_pages_10_11 R2188). -/
def execCmpyExt (ea : Word) (s : State) : Host.Outcome State Fault Refusal :=
  .next (compare16 .y (operand16 (eaExtended ea s)))

/-- `CMPU #` (49_pages_10_11 R3131). -/
def execCmpuImm (imm : Word) (s : State) : Host.Outcome State Fault Refusal :=
  .next (compare16 .u (imm, s))

/-- `CMPS #` (49_pages_10_11 R3140). -/
def execCmpsImm (imm : Word) (s : State) : Host.Outcome State Fault Refusal :=
  .next (compare16 .s (imm, s))

/-- `CMPU direct` (49_pages_10_11 R3147). -/
def execCmpuDirect (dd : Byte) (s : State) : Host.Outcome State Fault Refusal :=
  .next (compare16 .u (operand16 (eaDirect dd s)))

/-- `CMPS direct` (49_pages_10_11 R3156). -/
def execCmpsDirect (dd : Byte) (s : State) : Host.Outcome State Fault Refusal :=
  .next (compare16 .s (operand16 (eaDirect dd s)))

/-- `CMPU idx` (49_pages_10_11 R3163). -/
def execCmpuIdx (ix : Indexed) (s : State) : Host.Outcome State Fault Refusal :=
  .next (compare16 .u (operand16 (eaIndexed ix s)))

/-- `CMPS idx` (49_pages_10_11 R3172). -/
def execCmpsIdx (ix : Indexed) (s : State) : Host.Outcome State Fault Refusal :=
  .next (compare16 .s (operand16 (eaIndexed ix s)))

/-- `CMPU ext` (49_pages_10_11 R3179). -/
def execCmpuExt (ea : Word) (s : State) : Host.Outcome State Fault Refusal :=
  .next (compare16 .u (operand16 (eaExtended ea s)))

/-- `CMPS ext` (49_pages_10_11 R3188). -/
def execCmpsExt (ea : Word) (s : State) : Host.Outcome State Fault Refusal :=
  .next (compare16 .s (operand16 (eaExtended ea s)))

end Sys2Proof.Machine
end

