-- ==== Sys2Proof/Machine/Arithmetic8.lean ====
section
/-! DEFINITION. 8-bit arithmetic and logic on A and B: SUB, CMP, SBC, AND, BIT, EOR, ADC, OR, ADD, with ABA and DAA (files 41, 45 to 48). -/

namespace Sys2Proof.Machine

/-- `DAA inh` (41_ops_00_1F R1025). -/
def execDaa (s : State) : Host.Outcome State Fault Refusal :=
  .next (decimalAdjust s)

/-- `ABA inh` (41_ops_00_1F R1027). -/
def execAba (s : State) : Host.Outcome State Fault Refusal :=
  .next (operateAcc addOp .a (s.b, s))

/-- `SUBA #` (45_acc_a_80_9F R1128). -/
def execSubaImm (ii : Byte) (s : State) : Host.Outcome State Fault Refusal :=
  .next (operateAcc subOp .a (ii, s))

/-- `CMPA #` (45_acc_a_80_9F R1129). -/
def execCmpaImm (ii : Byte) (s : State) : Host.Outcome State Fault Refusal :=
  .next (compareAcc subOp .a (ii, s))

/-- `SBCA #` (45_acc_a_80_9F R1130). -/
def execSbcaImm (ii : Byte) (s : State) : Host.Outcome State Fault Refusal :=
  .next (operateAcc sbcOp .a (ii, s))

/-- `ANDA #` (45_acc_a_80_9F R1132). -/
def execAndaImm (ii : Byte) (s : State) : Host.Outcome State Fault Refusal :=
  .next (operateAcc andOp .a (ii, s))

/-- `BITA #` (45_acc_a_80_9F R1133). -/
def execBitaImm (ii : Byte) (s : State) : Host.Outcome State Fault Refusal :=
  .next (compareAcc andOp .a (ii, s))

/-- `EORA #` (45_acc_a_80_9F R1136). -/
def execEoraImm (ii : Byte) (s : State) : Host.Outcome State Fault Refusal :=
  .next (operateAcc eorOp .a (ii, s))

/-- `ADCA #` (45_acc_a_80_9F R1137). -/
def execAdcaImm (ii : Byte) (s : State) : Host.Outcome State Fault Refusal :=
  .next (operateAcc adcOp .a (ii, s))

/-- `ORA #` (45_acc_a_80_9F R1138). -/
def execOraImm (ii : Byte) (s : State) : Host.Outcome State Fault Refusal :=
  .next (operateAcc orOp .a (ii, s))

/-- `ADDA #` (45_acc_a_80_9F R1139). -/
def execAddaImm (ii : Byte) (s : State) : Host.Outcome State Fault Refusal :=
  .next (operateAcc addOp .a (ii, s))

/-- `SUBA direct` (45_acc_a_80_9F R1144). -/
def execSubaDirect (dd : Byte) (s : State) : Host.Outcome State Fault Refusal :=
  .next (operateAcc subOp .a (operand8 (eaDirect dd s)))

/-- `CMPA direct` (45_acc_a_80_9F R1145). -/
def execCmpaDirect (dd : Byte) (s : State) : Host.Outcome State Fault Refusal :=
  .next (compareAcc subOp .a (operand8 (eaDirect dd s)))

/-- `SBCA direct` (45_acc_a_80_9F R1146). -/
def execSbcaDirect (dd : Byte) (s : State) : Host.Outcome State Fault Refusal :=
  .next (operateAcc sbcOp .a (operand8 (eaDirect dd s)))

/-- `ANDA direct` (45_acc_a_80_9F R1148). -/
def execAndaDirect (dd : Byte) (s : State) : Host.Outcome State Fault Refusal :=
  .next (operateAcc andOp .a (operand8 (eaDirect dd s)))

/-- `BITA direct` (45_acc_a_80_9F R1149). -/
def execBitaDirect (dd : Byte) (s : State) : Host.Outcome State Fault Refusal :=
  .next (compareAcc andOp .a (operand8 (eaDirect dd s)))

/-- `EORA direct` (45_acc_a_80_9F R1152). -/
def execEoraDirect (dd : Byte) (s : State) : Host.Outcome State Fault Refusal :=
  .next (operateAcc eorOp .a (operand8 (eaDirect dd s)))

/-- `ADCA direct` (45_acc_a_80_9F R1153). -/
def execAdcaDirect (dd : Byte) (s : State) : Host.Outcome State Fault Refusal :=
  .next (operateAcc adcOp .a (operand8 (eaDirect dd s)))

/-- `ORA direct` (45_acc_a_80_9F R1154). -/
def execOraDirect (dd : Byte) (s : State) : Host.Outcome State Fault Refusal :=
  .next (operateAcc orOp .a (operand8 (eaDirect dd s)))

/-- `ADDA direct` (45_acc_a_80_9F R1155). -/
def execAddaDirect (dd : Byte) (s : State) : Host.Outcome State Fault Refusal :=
  .next (operateAcc addOp .a (operand8 (eaDirect dd s)))

/-- `SUBA idx` (46_acc_a_A0_BF R1160). -/
def execSubaIdx (ix : Indexed) (s : State) : Host.Outcome State Fault Refusal :=
  .next (operateAcc subOp .a (operand8 (eaIndexed ix s)))

/-- `CMPA idx` (46_acc_a_A0_BF R1161). -/
def execCmpaIdx (ix : Indexed) (s : State) : Host.Outcome State Fault Refusal :=
  .next (compareAcc subOp .a (operand8 (eaIndexed ix s)))

/-- `SBCA idx` (46_acc_a_A0_BF R1162). -/
def execSbcaIdx (ix : Indexed) (s : State) : Host.Outcome State Fault Refusal :=
  .next (operateAcc sbcOp .a (operand8 (eaIndexed ix s)))

/-- `ANDA idx` (46_acc_a_A0_BF R1164). -/
def execAndaIdx (ix : Indexed) (s : State) : Host.Outcome State Fault Refusal :=
  .next (operateAcc andOp .a (operand8 (eaIndexed ix s)))

/-- `BITA idx` (46_acc_a_A0_BF R1165). -/
def execBitaIdx (ix : Indexed) (s : State) : Host.Outcome State Fault Refusal :=
  .next (compareAcc andOp .a (operand8 (eaIndexed ix s)))

/-- `EORA idx` (46_acc_a_A0_BF R1168). -/
def execEoraIdx (ix : Indexed) (s : State) : Host.Outcome State Fault Refusal :=
  .next (operateAcc eorOp .a (operand8 (eaIndexed ix s)))

/-- `ADCA idx` (46_acc_a_A0_BF R1169). -/
def execAdcaIdx (ix : Indexed) (s : State) : Host.Outcome State Fault Refusal :=
  .next (operateAcc adcOp .a (operand8 (eaIndexed ix s)))

/-- `ORA idx` (46_acc_a_A0_BF R1170). -/
def execOraIdx (ix : Indexed) (s : State) : Host.Outcome State Fault Refusal :=
  .next (operateAcc orOp .a (operand8 (eaIndexed ix s)))

/-- `ADDA idx` (46_acc_a_A0_BF R1171). -/
def execAddaIdx (ix : Indexed) (s : State) : Host.Outcome State Fault Refusal :=
  .next (operateAcc addOp .a (operand8 (eaIndexed ix s)))

/-- `SUBA ext` (46_acc_a_A0_BF R1176). -/
def execSubaExt (ea : Word) (s : State) : Host.Outcome State Fault Refusal :=
  .next (operateAcc subOp .a (operand8 (eaExtended ea s)))

/-- `CMPA ext` (46_acc_a_A0_BF R1177). -/
def execCmpaExt (ea : Word) (s : State) : Host.Outcome State Fault Refusal :=
  .next (compareAcc subOp .a (operand8 (eaExtended ea s)))

/-- `SBCA ext` (46_acc_a_A0_BF R1178). -/
def execSbcaExt (ea : Word) (s : State) : Host.Outcome State Fault Refusal :=
  .next (operateAcc sbcOp .a (operand8 (eaExtended ea s)))

/-- `ANDA ext` (46_acc_a_A0_BF R1180). -/
def execAndaExt (ea : Word) (s : State) : Host.Outcome State Fault Refusal :=
  .next (operateAcc andOp .a (operand8 (eaExtended ea s)))

/-- `BITA ext` (46_acc_a_A0_BF R1181). -/
def execBitaExt (ea : Word) (s : State) : Host.Outcome State Fault Refusal :=
  .next (compareAcc andOp .a (operand8 (eaExtended ea s)))

/-- `EORA ext` (46_acc_a_A0_BF R1184). -/
def execEoraExt (ea : Word) (s : State) : Host.Outcome State Fault Refusal :=
  .next (operateAcc eorOp .a (operand8 (eaExtended ea s)))

/-- `ADCA ext` (46_acc_a_A0_BF R1185). -/
def execAdcaExt (ea : Word) (s : State) : Host.Outcome State Fault Refusal :=
  .next (operateAcc adcOp .a (operand8 (eaExtended ea s)))

/-- `ORA ext` (46_acc_a_A0_BF R1186). -/
def execOraExt (ea : Word) (s : State) : Host.Outcome State Fault Refusal :=
  .next (operateAcc orOp .a (operand8 (eaExtended ea s)))

/-- `ADDA ext` (46_acc_a_A0_BF R1187). -/
def execAddaExt (ea : Word) (s : State) : Host.Outcome State Fault Refusal :=
  .next (operateAcc addOp .a (operand8 (eaExtended ea s)))

/-- `SUBB #` (47_acc_b_C0_DF R1192). -/
def execSubbImm (ii : Byte) (s : State) : Host.Outcome State Fault Refusal :=
  .next (operateAcc subOp .b (ii, s))

/-- `CMPB #` (47_acc_b_C0_DF R1193). -/
def execCmpbImm (ii : Byte) (s : State) : Host.Outcome State Fault Refusal :=
  .next (compareAcc subOp .b (ii, s))

/-- `SBCB #` (47_acc_b_C0_DF R1194). -/
def execSbcbImm (ii : Byte) (s : State) : Host.Outcome State Fault Refusal :=
  .next (operateAcc sbcOp .b (ii, s))

/-- `ANDB #` (47_acc_b_C0_DF R1196). -/
def execAndbImm (ii : Byte) (s : State) : Host.Outcome State Fault Refusal :=
  .next (operateAcc andOp .b (ii, s))

/-- `BITB #` (47_acc_b_C0_DF R1197). -/
def execBitbImm (ii : Byte) (s : State) : Host.Outcome State Fault Refusal :=
  .next (compareAcc andOp .b (ii, s))

/-- `EORB #` (47_acc_b_C0_DF R1200). -/
def execEorbImm (ii : Byte) (s : State) : Host.Outcome State Fault Refusal :=
  .next (operateAcc eorOp .b (ii, s))

/-- `ADCB #` (47_acc_b_C0_DF R1201). -/
def execAdcbImm (ii : Byte) (s : State) : Host.Outcome State Fault Refusal :=
  .next (operateAcc adcOp .b (ii, s))

/-- `ORB #` (47_acc_b_C0_DF R1202). -/
def execOrbImm (ii : Byte) (s : State) : Host.Outcome State Fault Refusal :=
  .next (operateAcc orOp .b (ii, s))

/-- `ADDB #` (47_acc_b_C0_DF R1203). -/
def execAddbImm (ii : Byte) (s : State) : Host.Outcome State Fault Refusal :=
  .next (operateAcc addOp .b (ii, s))

/-- `SUBB direct` (47_acc_b_C0_DF R1208). -/
def execSubbDirect (dd : Byte) (s : State) : Host.Outcome State Fault Refusal :=
  .next (operateAcc subOp .b (operand8 (eaDirect dd s)))

/-- `CMPB direct` (47_acc_b_C0_DF R1209). -/
def execCmpbDirect (dd : Byte) (s : State) : Host.Outcome State Fault Refusal :=
  .next (compareAcc subOp .b (operand8 (eaDirect dd s)))

/-- `SBCB direct` (47_acc_b_C0_DF R1210). -/
def execSbcbDirect (dd : Byte) (s : State) : Host.Outcome State Fault Refusal :=
  .next (operateAcc sbcOp .b (operand8 (eaDirect dd s)))

/-- `ANDB direct` (47_acc_b_C0_DF R1212). -/
def execAndbDirect (dd : Byte) (s : State) : Host.Outcome State Fault Refusal :=
  .next (operateAcc andOp .b (operand8 (eaDirect dd s)))

/-- `BITB direct` (47_acc_b_C0_DF R1213). -/
def execBitbDirect (dd : Byte) (s : State) : Host.Outcome State Fault Refusal :=
  .next (compareAcc andOp .b (operand8 (eaDirect dd s)))

/-- `EORB direct` (47_acc_b_C0_DF R1216). -/
def execEorbDirect (dd : Byte) (s : State) : Host.Outcome State Fault Refusal :=
  .next (operateAcc eorOp .b (operand8 (eaDirect dd s)))

/-- `ADCB direct` (47_acc_b_C0_DF R1217). -/
def execAdcbDirect (dd : Byte) (s : State) : Host.Outcome State Fault Refusal :=
  .next (operateAcc adcOp .b (operand8 (eaDirect dd s)))

/-- `ORB direct` (47_acc_b_C0_DF R1218). -/
def execOrbDirect (dd : Byte) (s : State) : Host.Outcome State Fault Refusal :=
  .next (operateAcc orOp .b (operand8 (eaDirect dd s)))

/-- `ADDB direct` (47_acc_b_C0_DF R1219). -/
def execAddbDirect (dd : Byte) (s : State) : Host.Outcome State Fault Refusal :=
  .next (operateAcc addOp .b (operand8 (eaDirect dd s)))

/-- `SUBB idx` (48_acc_b_E0_FF R1224). -/
def execSubbIdx (ix : Indexed) (s : State) : Host.Outcome State Fault Refusal :=
  .next (operateAcc subOp .b (operand8 (eaIndexed ix s)))

/-- `CMPB idx` (48_acc_b_E0_FF R1225). -/
def execCmpbIdx (ix : Indexed) (s : State) : Host.Outcome State Fault Refusal :=
  .next (compareAcc subOp .b (operand8 (eaIndexed ix s)))

/-- `SBCB idx` (48_acc_b_E0_FF R1226). -/
def execSbcbIdx (ix : Indexed) (s : State) : Host.Outcome State Fault Refusal :=
  .next (operateAcc sbcOp .b (operand8 (eaIndexed ix s)))

/-- `ANDB idx` (48_acc_b_E0_FF R1228). -/
def execAndbIdx (ix : Indexed) (s : State) : Host.Outcome State Fault Refusal :=
  .next (operateAcc andOp .b (operand8 (eaIndexed ix s)))

/-- `BITB idx` (48_acc_b_E0_FF R1229). -/
def execBitbIdx (ix : Indexed) (s : State) : Host.Outcome State Fault Refusal :=
  .next (compareAcc andOp .b (operand8 (eaIndexed ix s)))

/-- `EORB idx` (48_acc_b_E0_FF R1232). -/
def execEorbIdx (ix : Indexed) (s : State) : Host.Outcome State Fault Refusal :=
  .next (operateAcc eorOp .b (operand8 (eaIndexed ix s)))

/-- `ADCB idx` (48_acc_b_E0_FF R1233). -/
def execAdcbIdx (ix : Indexed) (s : State) : Host.Outcome State Fault Refusal :=
  .next (operateAcc adcOp .b (operand8 (eaIndexed ix s)))

/-- `ORB idx` (48_acc_b_E0_FF R1234). -/
def execOrbIdx (ix : Indexed) (s : State) : Host.Outcome State Fault Refusal :=
  .next (operateAcc orOp .b (operand8 (eaIndexed ix s)))

/-- `ADDB idx` (48_acc_b_E0_FF R1235). -/
def execAddbIdx (ix : Indexed) (s : State) : Host.Outcome State Fault Refusal :=
  .next (operateAcc addOp .b (operand8 (eaIndexed ix s)))

/-- `SUBB ext` (48_acc_b_E0_FF R1240). -/
def execSubbExt (ea : Word) (s : State) : Host.Outcome State Fault Refusal :=
  .next (operateAcc subOp .b (operand8 (eaExtended ea s)))

/-- `CMPB ext` (48_acc_b_E0_FF R1241). -/
def execCmpbExt (ea : Word) (s : State) : Host.Outcome State Fault Refusal :=
  .next (compareAcc subOp .b (operand8 (eaExtended ea s)))

/-- `SBCB ext` (48_acc_b_E0_FF R1242). -/
def execSbcbExt (ea : Word) (s : State) : Host.Outcome State Fault Refusal :=
  .next (operateAcc sbcOp .b (operand8 (eaExtended ea s)))

/-- `ANDB ext` (48_acc_b_E0_FF R1244). -/
def execAndbExt (ea : Word) (s : State) : Host.Outcome State Fault Refusal :=
  .next (operateAcc andOp .b (operand8 (eaExtended ea s)))

/-- `BITB ext` (48_acc_b_E0_FF R1245). -/
def execBitbExt (ea : Word) (s : State) : Host.Outcome State Fault Refusal :=
  .next (compareAcc andOp .b (operand8 (eaExtended ea s)))

/-- `EORB ext` (48_acc_b_E0_FF R1248). -/
def execEorbExt (ea : Word) (s : State) : Host.Outcome State Fault Refusal :=
  .next (operateAcc eorOp .b (operand8 (eaExtended ea s)))

/-- `ADCB ext` (48_acc_b_E0_FF R1249). -/
def execAdcbExt (ea : Word) (s : State) : Host.Outcome State Fault Refusal :=
  .next (operateAcc adcOp .b (operand8 (eaExtended ea s)))

/-- `ORB ext` (48_acc_b_E0_FF R1250). -/
def execOrbExt (ea : Word) (s : State) : Host.Outcome State Fault Refusal :=
  .next (operateAcc orOp .b (operand8 (eaExtended ea s)))

/-- `ADDB ext` (48_acc_b_E0_FF R1251). -/
def execAddbExt (ea : Word) (s : State) : Host.Outcome State Fault Refusal :=
  .next (operateAcc addOp .b (operand8 (eaExtended ea s)))

end Sys2Proof.Machine
end

