-- ==== Sys2Proof/Machine/Branch.lean ====
section
/-! DEFINITION. Branches, jumps, calls and RTS (files 41, 42, 44 to 46, 49). -/

namespace Sys2Proof.Machine

/-- `JMP direct` (41_ops_00_1F R1014). -/
def execJmpDirect (dd : Byte) (s : State) : Host.Outcome State Fault Refusal :=
  .next (jumpTo (eaDirect dd s))

/-- `LBRA rel16` (41_ops_00_1F R1022). -/
def execLbra (disp : Word) (s : State) : Host.Outcome State Fault Refusal :=
  .next (branch .always (relTarget16 disp s) s)

/-- `LBSR rel16` (41_ops_00_1F R1023). -/
def execLbsr (disp : Word) (s : State) : Host.Outcome State Fault Refusal :=
  .next (callTo (relTarget16 disp s, s))

/-- `BRA rel8` (42_ops_20_3F R1032). -/
def execBra (rr : Byte) (s : State) : Host.Outcome State Fault Refusal :=
  .next (branch .always (relTarget8 rr s) s)

/-- `BRN rel8` (42_ops_20_3F R1033). -/
def execBrn (rr : Byte) (s : State) : Host.Outcome State Fault Refusal :=
  .next (branch .never (relTarget8 rr s) s)

/-- `BHI rel8` (42_ops_20_3F R1034). -/
def execBhi (rr : Byte) (s : State) : Host.Outcome State Fault Refusal :=
  .next (branch .hi (relTarget8 rr s) s)

/-- `BLS rel8` (42_ops_20_3F R1035). -/
def execBls (rr : Byte) (s : State) : Host.Outcome State Fault Refusal :=
  .next (branch .ls (relTarget8 rr s) s)

/-- `BCC rel8` (42_ops_20_3F R1036). -/
def execBcc (rr : Byte) (s : State) : Host.Outcome State Fault Refusal :=
  .next (branch .carryClear (relTarget8 rr s) s)

/-- `BCS rel8` (42_ops_20_3F R1037). -/
def execBcs (rr : Byte) (s : State) : Host.Outcome State Fault Refusal :=
  .next (branch .carrySet (relTarget8 rr s) s)

/-- `BNE rel8` (42_ops_20_3F R1038). -/
def execBne (rr : Byte) (s : State) : Host.Outcome State Fault Refusal :=
  .next (branch .ne (relTarget8 rr s) s)

/-- `BEQ rel8` (42_ops_20_3F R1039). -/
def execBeq (rr : Byte) (s : State) : Host.Outcome State Fault Refusal :=
  .next (branch .eq (relTarget8 rr s) s)

/-- `BVC rel8` (42_ops_20_3F R1040). -/
def execBvc (rr : Byte) (s : State) : Host.Outcome State Fault Refusal :=
  .next (branch .overflowClear (relTarget8 rr s) s)

/-- `BVS rel8` (42_ops_20_3F R1041). -/
def execBvs (rr : Byte) (s : State) : Host.Outcome State Fault Refusal :=
  .next (branch .overflowSet (relTarget8 rr s) s)

/-- `BPL rel8` (42_ops_20_3F R1042). -/
def execBpl (rr : Byte) (s : State) : Host.Outcome State Fault Refusal :=
  .next (branch .pl (relTarget8 rr s) s)

/-- `BMI rel8` (42_ops_20_3F R1043). -/
def execBmi (rr : Byte) (s : State) : Host.Outcome State Fault Refusal :=
  .next (branch .mi (relTarget8 rr s) s)

/-- `BGE rel8` (42_ops_20_3F R1044). -/
def execBge (rr : Byte) (s : State) : Host.Outcome State Fault Refusal :=
  .next (branch .ge (relTarget8 rr s) s)

/-- `BLT rel8` (42_ops_20_3F R1045). -/
def execBlt (rr : Byte) (s : State) : Host.Outcome State Fault Refusal :=
  .next (branch .lt (relTarget8 rr s) s)

/-- `BGT rel8` (42_ops_20_3F R1046). -/
def execBgt (rr : Byte) (s : State) : Host.Outcome State Fault Refusal :=
  .next (branch .gt (relTarget8 rr s) s)

/-- `BLE rel8` (42_ops_20_3F R1047). -/
def execBle (rr : Byte) (s : State) : Host.Outcome State Fault Refusal :=
  .next (branch .le (relTarget8 rr s) s)

/-- `RTS inh` (42_ops_20_3F R1057). -/
def execRts (s : State) : Host.Outcome State Fault Refusal :=
  .next (pullInto16 .s State.putPc s)

/-- `JMP idx` (44_memory_rmw_60_7F R1110). -/
def execJmpIdx (ix : Indexed) (s : State) : Host.Outcome State Fault Refusal :=
  .next (jumpTo (eaIndexed ix s))

/-- `JMP ext` (44_memory_rmw_60_7F R1126). -/
def execJmpExt (ea : Word) (s : State) : Host.Outcome State Fault Refusal :=
  .next (jumpTo (eaExtended ea s))

/-- `BSR rel8` (45_acc_a_80_9F R1141). -/
def execBsr (rr : Byte) (s : State) : Host.Outcome State Fault Refusal :=
  .next (callTo (relTarget8 rr s, s))

/-- `JSR direct` (45_acc_a_80_9F R1157). -/
def execJsrDirect (dd : Byte) (s : State) : Host.Outcome State Fault Refusal :=
  .next (callTo (eaDirect dd s))

/-- `JSR idx` (46_acc_a_A0_BF R1173). -/
def execJsrIdx (ix : Indexed) (s : State) : Host.Outcome State Fault Refusal :=
  .next (callTo (eaIndexed ix s))

/-- `JSR ext` (46_acc_a_A0_BF R1189). -/
def execJsrExt (ea : Word) (s : State) : Host.Outcome State Fault Refusal :=
  .next (callTo (eaExtended ea s))

/-- `LBRN rel16` (49_pages_10_11 R2033). -/
def execLbrn (disp : Word) (s : State) : Host.Outcome State Fault Refusal :=
  .next (branch .never (relTarget16 disp s) s)

/-- `LBHI rel16` (49_pages_10_11 R2034). -/
def execLbhi (disp : Word) (s : State) : Host.Outcome State Fault Refusal :=
  .next (branch .hi (relTarget16 disp s) s)

/-- `LBLS rel16` (49_pages_10_11 R2035). -/
def execLbls (disp : Word) (s : State) : Host.Outcome State Fault Refusal :=
  .next (branch .ls (relTarget16 disp s) s)

/-- `LBCC rel16` (49_pages_10_11 R2036). -/
def execLbcc (disp : Word) (s : State) : Host.Outcome State Fault Refusal :=
  .next (branch .carryClear (relTarget16 disp s) s)

/-- `LBCS rel16` (49_pages_10_11 R2037). -/
def execLbcs (disp : Word) (s : State) : Host.Outcome State Fault Refusal :=
  .next (branch .carrySet (relTarget16 disp s) s)

/-- `LBNE rel16` (49_pages_10_11 R2038). -/
def execLbne (disp : Word) (s : State) : Host.Outcome State Fault Refusal :=
  .next (branch .ne (relTarget16 disp s) s)

/-- `LBEQ rel16` (49_pages_10_11 R2039). -/
def execLbeq (disp : Word) (s : State) : Host.Outcome State Fault Refusal :=
  .next (branch .eq (relTarget16 disp s) s)

/-- `LBVC rel16` (49_pages_10_11 R2040). -/
def execLbvc (disp : Word) (s : State) : Host.Outcome State Fault Refusal :=
  .next (branch .overflowClear (relTarget16 disp s) s)

/-- `LBVS rel16` (49_pages_10_11 R2041). -/
def execLbvs (disp : Word) (s : State) : Host.Outcome State Fault Refusal :=
  .next (branch .overflowSet (relTarget16 disp s) s)

/-- `LBPL rel16` (49_pages_10_11 R2042). -/
def execLbpl (disp : Word) (s : State) : Host.Outcome State Fault Refusal :=
  .next (branch .pl (relTarget16 disp s) s)

/-- `LBMI rel16` (49_pages_10_11 R2043). -/
def execLbmi (disp : Word) (s : State) : Host.Outcome State Fault Refusal :=
  .next (branch .mi (relTarget16 disp s) s)

/-- `LBGE rel16` (49_pages_10_11 R2044). -/
def execLbge (disp : Word) (s : State) : Host.Outcome State Fault Refusal :=
  .next (branch .ge (relTarget16 disp s) s)

/-- `LBLT rel16` (49_pages_10_11 R2045). -/
def execLblt (disp : Word) (s : State) : Host.Outcome State Fault Refusal :=
  .next (branch .lt (relTarget16 disp s) s)

/-- `LBGT rel16` (49_pages_10_11 R2046). -/
def execLbgt (disp : Word) (s : State) : Host.Outcome State Fault Refusal :=
  .next (branch .gt (relTarget16 disp s) s)

/-- `LBLE rel16` (49_pages_10_11 R2047). -/
def execLble (disp : Word) (s : State) : Host.Outcome State Fault Refusal :=
  .next (branch .le (relTarget16 disp s) s)

end Sys2Proof.Machine
end

