-- ==== Sys2Proof/Machine/LoadStore.lean ====
section
/-! DEFINITION. Loads and stores of 8-bit and 16-bit registers, and the load-effective-address instructions (files 42, 45 to 49). -/

namespace Sys2Proof.Machine

/-- `LEAX idx` (42_ops_20_3F R1048). -/
def execLeax (ix : Indexed) (s : State) : Host.Outcome State Fault Refusal :=
  .next (leaWithZ .x (eaIndexed ix s))

/-- `LEAY idx` (42_ops_20_3F R1049). -/
def execLeay (ix : Indexed) (s : State) : Host.Outcome State Fault Refusal :=
  .next (leaWithZ .y (eaIndexed ix s))

/-- `LEAS idx` (42_ops_20_3F R1050). -/
def execLeas (ix : Indexed) (s : State) : Host.Outcome State Fault Refusal :=
  .next (leaNoFlags .s (eaIndexed ix s))

/-- `LEAU idx` (42_ops_20_3F R1051). -/
def execLeau (ix : Indexed) (s : State) : Host.Outcome State Fault Refusal :=
  .next (leaNoFlags .u (eaIndexed ix s))

/-- `LDA #` (45_acc_a_80_9F R1134). -/
def execLdaImm (ii : Byte) (s : State) : Host.Outcome State Fault Refusal :=
  .next (loadAcc .a (ii, s))

/-- `LDX #` (45_acc_a_80_9F R1142). -/
def execLdxImm (imm : Word) (s : State) : Host.Outcome State Fault Refusal :=
  .next (load16 .x (imm, s))

/-- `LDA direct` (45_acc_a_80_9F R1150). -/
def execLdaDirect (dd : Byte) (s : State) : Host.Outcome State Fault Refusal :=
  .next (loadAcc .a (operand8 (eaDirect dd s)))

/-- `STA direct` (45_acc_a_80_9F R1151). -/
def execStaDirect (dd : Byte) (s : State) : Host.Outcome State Fault Refusal :=
  .next (storeAcc .a (eaDirect dd s))

/-- `LDX direct` (45_acc_a_80_9F R1158). -/
def execLdxDirect (dd : Byte) (s : State) : Host.Outcome State Fault Refusal :=
  .next (load16 .x (operand16 (eaDirect dd s)))

/-- `STX direct` (45_acc_a_80_9F R1159). -/
def execStxDirect (dd : Byte) (s : State) : Host.Outcome State Fault Refusal :=
  .next (store16 .x (eaDirect dd s))

/-- `LDA idx` (46_acc_a_A0_BF R1166). -/
def execLdaIdx (ix : Indexed) (s : State) : Host.Outcome State Fault Refusal :=
  .next (loadAcc .a (operand8 (eaIndexed ix s)))

/-- `STA idx` (46_acc_a_A0_BF R1167). -/
def execStaIdx (ix : Indexed) (s : State) : Host.Outcome State Fault Refusal :=
  .next (storeAcc .a (eaIndexed ix s))

/-- `LDX idx` (46_acc_a_A0_BF R1174). -/
def execLdxIdx (ix : Indexed) (s : State) : Host.Outcome State Fault Refusal :=
  .next (load16 .x (operand16 (eaIndexed ix s)))

/-- `STX idx` (46_acc_a_A0_BF R1175). -/
def execStxIdx (ix : Indexed) (s : State) : Host.Outcome State Fault Refusal :=
  .next (store16 .x (eaIndexed ix s))

/-- `LDA ext` (46_acc_a_A0_BF R1182). -/
def execLdaExt (ea : Word) (s : State) : Host.Outcome State Fault Refusal :=
  .next (loadAcc .a (operand8 (eaExtended ea s)))

/-- `STA ext` (46_acc_a_A0_BF R1183). -/
def execStaExt (ea : Word) (s : State) : Host.Outcome State Fault Refusal :=
  .next (storeAcc .a (eaExtended ea s))

/-- `LDX ext` (46_acc_a_A0_BF R1190). -/
def execLdxExt (ea : Word) (s : State) : Host.Outcome State Fault Refusal :=
  .next (load16 .x (operand16 (eaExtended ea s)))

/-- `STX ext` (46_acc_a_A0_BF R1191). -/
def execStxExt (ea : Word) (s : State) : Host.Outcome State Fault Refusal :=
  .next (store16 .x (eaExtended ea s))

/-- `LDB #` (47_acc_b_C0_DF R1198). -/
def execLdbImm (ii : Byte) (s : State) : Host.Outcome State Fault Refusal :=
  .next (loadAcc .b (ii, s))

/-- `LDD #` (47_acc_b_C0_DF R1204). -/
def execLddImm (imm : Word) (s : State) : Host.Outcome State Fault Refusal :=
  .next (load16 .d (imm, s))

/-- `LDU #` (47_acc_b_C0_DF R1206). -/
def execLduImm (imm : Word) (s : State) : Host.Outcome State Fault Refusal :=
  .next (load16 .u (imm, s))

/-- `LDB direct` (47_acc_b_C0_DF R1214). -/
def execLdbDirect (dd : Byte) (s : State) : Host.Outcome State Fault Refusal :=
  .next (loadAcc .b (operand8 (eaDirect dd s)))

/-- `STB direct` (47_acc_b_C0_DF R1215). -/
def execStbDirect (dd : Byte) (s : State) : Host.Outcome State Fault Refusal :=
  .next (storeAcc .b (eaDirect dd s))

/-- `LDD direct` (47_acc_b_C0_DF R1220). -/
def execLddDirect (dd : Byte) (s : State) : Host.Outcome State Fault Refusal :=
  .next (load16 .d (operand16 (eaDirect dd s)))

/-- `STD direct` (47_acc_b_C0_DF R1221). -/
def execStdDirect (dd : Byte) (s : State) : Host.Outcome State Fault Refusal :=
  .next (store16 .d (eaDirect dd s))

/-- `LDU direct` (47_acc_b_C0_DF R1222). -/
def execLduDirect (dd : Byte) (s : State) : Host.Outcome State Fault Refusal :=
  .next (load16 .u (operand16 (eaDirect dd s)))

/-- `STU direct` (47_acc_b_C0_DF R1223). -/
def execStuDirect (dd : Byte) (s : State) : Host.Outcome State Fault Refusal :=
  .next (store16 .u (eaDirect dd s))

/-- `LDB idx` (48_acc_b_E0_FF R1230). -/
def execLdbIdx (ix : Indexed) (s : State) : Host.Outcome State Fault Refusal :=
  .next (loadAcc .b (operand8 (eaIndexed ix s)))

/-- `STB idx` (48_acc_b_E0_FF R1231). -/
def execStbIdx (ix : Indexed) (s : State) : Host.Outcome State Fault Refusal :=
  .next (storeAcc .b (eaIndexed ix s))

/-- `LDD idx` (48_acc_b_E0_FF R1236). -/
def execLddIdx (ix : Indexed) (s : State) : Host.Outcome State Fault Refusal :=
  .next (load16 .d (operand16 (eaIndexed ix s)))

/-- `STD idx` (48_acc_b_E0_FF R1237). -/
def execStdIdx (ix : Indexed) (s : State) : Host.Outcome State Fault Refusal :=
  .next (store16 .d (eaIndexed ix s))

/-- `LDU idx` (48_acc_b_E0_FF R1238). -/
def execLduIdx (ix : Indexed) (s : State) : Host.Outcome State Fault Refusal :=
  .next (load16 .u (operand16 (eaIndexed ix s)))

/-- `STU idx` (48_acc_b_E0_FF R1239). -/
def execStuIdx (ix : Indexed) (s : State) : Host.Outcome State Fault Refusal :=
  .next (store16 .u (eaIndexed ix s))

/-- `LDB ext` (48_acc_b_E0_FF R1246). -/
def execLdbExt (ea : Word) (s : State) : Host.Outcome State Fault Refusal :=
  .next (loadAcc .b (operand8 (eaExtended ea s)))

/-- `STB ext` (48_acc_b_E0_FF R1247). -/
def execStbExt (ea : Word) (s : State) : Host.Outcome State Fault Refusal :=
  .next (storeAcc .b (eaExtended ea s))

/-- `LDD ext` (48_acc_b_E0_FF R1252). -/
def execLddExt (ea : Word) (s : State) : Host.Outcome State Fault Refusal :=
  .next (load16 .d (operand16 (eaExtended ea s)))

/-- `STD ext` (48_acc_b_E0_FF R1253). -/
def execStdExt (ea : Word) (s : State) : Host.Outcome State Fault Refusal :=
  .next (store16 .d (eaExtended ea s))

/-- `LDU ext` (48_acc_b_E0_FF R1254). -/
def execLduExt (ea : Word) (s : State) : Host.Outcome State Fault Refusal :=
  .next (load16 .u (operand16 (eaExtended ea s)))

/-- `STU ext` (48_acc_b_E0_FF R1255). -/
def execStuExt (ea : Word) (s : State) : Host.Outcome State Fault Refusal :=
  .next (store16 .u (eaExtended ea s))

/-- `LDY #` (49_pages_10_11 R2142). -/
def execLdyImm (imm : Word) (s : State) : Host.Outcome State Fault Refusal :=
  .next (load16 .y (imm, s))

/-- `LDY direct` (49_pages_10_11 R2158). -/
def execLdyDirect (dd : Byte) (s : State) : Host.Outcome State Fault Refusal :=
  .next (load16 .y (operand16 (eaDirect dd s)))

/-- `STY direct` (49_pages_10_11 R2159). -/
def execStyDirect (dd : Byte) (s : State) : Host.Outcome State Fault Refusal :=
  .next (store16 .y (eaDirect dd s))

/-- `LDY idx` (49_pages_10_11 R2174). -/
def execLdyIdx (ix : Indexed) (s : State) : Host.Outcome State Fault Refusal :=
  .next (load16 .y (operand16 (eaIndexed ix s)))

/-- `STY idx` (49_pages_10_11 R2175). -/
def execStyIdx (ix : Indexed) (s : State) : Host.Outcome State Fault Refusal :=
  .next (store16 .y (eaIndexed ix s))

/-- `LDY ext` (49_pages_10_11 R2190). -/
def execLdyExt (ea : Word) (s : State) : Host.Outcome State Fault Refusal :=
  .next (load16 .y (operand16 (eaExtended ea s)))

/-- `STY ext` (49_pages_10_11 R2191). -/
def execStyExt (ea : Word) (s : State) : Host.Outcome State Fault Refusal :=
  .next (store16 .y (eaExtended ea s))

/-- `LDS #` (49_pages_10_11 R2206). -/
def execLdsImm (imm : Word) (s : State) : Host.Outcome State Fault Refusal :=
  .next (load16 .s (imm, s))

/-- `LDS direct` (49_pages_10_11 R2222). -/
def execLdsDirect (dd : Byte) (s : State) : Host.Outcome State Fault Refusal :=
  .next (load16 .s (operand16 (eaDirect dd s)))

/-- `STS direct` (49_pages_10_11 R2223). -/
def execStsDirect (dd : Byte) (s : State) : Host.Outcome State Fault Refusal :=
  .next (store16 .s (eaDirect dd s))

/-- `LDS idx` (49_pages_10_11 R2238). -/
def execLdsIdx (ix : Indexed) (s : State) : Host.Outcome State Fault Refusal :=
  .next (load16 .s (operand16 (eaIndexed ix s)))

/-- `STS idx` (49_pages_10_11 R2239). -/
def execStsIdx (ix : Indexed) (s : State) : Host.Outcome State Fault Refusal :=
  .next (store16 .s (eaIndexed ix s))

/-- `LDS ext` (49_pages_10_11 R2254). -/
def execLdsExt (ea : Word) (s : State) : Host.Outcome State Fault Refusal :=
  .next (load16 .s (operand16 (eaExtended ea s)))

/-- `STS ext` (49_pages_10_11 R2255). -/
def execStsExt (ea : Word) (s : State) : Host.Outcome State Fault Refusal :=
  .next (store16 .s (eaExtended ea s))

end Sys2Proof.Machine
end

