-- ==== Sys2Proof/Machine/Nop.lean ====
section
/-! DEFINITION. NOP, the ten named bytes that are treated as NOP (30_encoding R104), and the encodings the spec refuses (30_encoding R105,
49_pages_10_11 R2900, R3900). -/

namespace Sys2Proof.Machine

/-- `NOP* inh` (41_ops_00_1F R1001). -/
def execNop01 (s : State) : Host.Outcome State Fault Refusal :=
  .next s

/-- `NOP* inh` (41_ops_00_1F R1002). -/
def execNop02 (s : State) : Host.Outcome State Fault Refusal :=
  .next s

/-- `NOP* inh` (41_ops_00_1F R1005). -/
def execNop05 (s : State) : Host.Outcome State Fault Refusal :=
  .next s

/-- `NOP inh` (41_ops_00_1F R1018). -/
def execNop (s : State) : Host.Outcome State Fault Refusal :=
  .next s

/-- `(unassigned)` (41_ops_00_1F R1020). -/
def execUnassigned14 (_s : State) : Host.Outcome State Fault Refusal :=
  .refused (.unassignedOpcode 0x14#8)

/-- `(unassigned)` (41_ops_00_1F R1021). -/
def execUnassigned15 (_s : State) : Host.Outcome State Fault Refusal :=
  .refused (.unassignedOpcode 0x15#8)

/-- `NOP* inh` (41_ops_00_1F R1024). -/
def execNop18 (s : State) : Host.Outcome State Fault Refusal :=
  .next s

/-- `NOP* inh` (42_ops_20_3F R1056). -/
def execNop38 (s : State) : Host.Outcome State Fault Refusal :=
  .next s

/-- `(unassigned)` (43_accumulator_40_5F R1065). -/
def execUnassigned41 (_s : State) : Host.Outcome State Fault Refusal :=
  .refused (.unassignedOpcode 0x41#8)

/-- `(unassigned)` (43_accumulator_40_5F R1066). -/
def execUnassigned42 (_s : State) : Host.Outcome State Fault Refusal :=
  .refused (.unassignedOpcode 0x42#8)

/-- `NOP* inh` (43_accumulator_40_5F R1069). -/
def execNop45 (s : State) : Host.Outcome State Fault Refusal :=
  .next s

/-- `(unassigned)` (43_accumulator_40_5F R1075). -/
def execUnassigned4B (_s : State) : Host.Outcome State Fault Refusal :=
  .refused (.unassignedOpcode 0x4B#8)

/-- `NOP* inh` (43_accumulator_40_5F R1078). -/
def execNop4E (s : State) : Host.Outcome State Fault Refusal :=
  .next s

/-- `(unassigned)` (43_accumulator_40_5F R1081). -/
def execUnassigned51 (_s : State) : Host.Outcome State Fault Refusal :=
  .refused (.unassignedOpcode 0x51#8)

/-- `NOP* inh` (43_accumulator_40_5F R1082). -/
def execNop52 (s : State) : Host.Outcome State Fault Refusal :=
  .next s

/-- `(unassigned)` (43_accumulator_40_5F R1085). -/
def execUnassigned55 (_s : State) : Host.Outcome State Fault Refusal :=
  .refused (.unassignedOpcode 0x55#8)

/-- `(unassigned)` (43_accumulator_40_5F R1091). -/
def execUnassigned5B (_s : State) : Host.Outcome State Fault Refusal :=
  .refused (.unassignedOpcode 0x5B#8)

/-- `(unassigned)` (43_accumulator_40_5F R1094). -/
def execUnassigned5E (_s : State) : Host.Outcome State Fault Refusal :=
  .refused (.unassignedOpcode 0x5E#8)

/-- `(unassigned)` (44_memory_rmw_60_7F R1097). -/
def execUnassigned61 (_s : State) : Host.Outcome State Fault Refusal :=
  .refused (.unassignedOpcode 0x61#8)

/-- `(unassigned)` (44_memory_rmw_60_7F R1098). -/
def execUnassigned62 (_s : State) : Host.Outcome State Fault Refusal :=
  .refused (.unassignedOpcode 0x62#8)

/-- `(unassigned)` (44_memory_rmw_60_7F R1101). -/
def execUnassigned65 (_s : State) : Host.Outcome State Fault Refusal :=
  .refused (.unassignedOpcode 0x65#8)

/-- `(unassigned)` (44_memory_rmw_60_7F R1107). -/
def execUnassigned6B (_s : State) : Host.Outcome State Fault Refusal :=
  .refused (.unassignedOpcode 0x6B#8)

/-- `(unassigned)` (44_memory_rmw_60_7F R1113). -/
def execUnassigned71 (_s : State) : Host.Outcome State Fault Refusal :=
  .refused (.unassignedOpcode 0x71#8)

/-- `(unassigned)` (44_memory_rmw_60_7F R1114). -/
def execUnassigned72 (_s : State) : Host.Outcome State Fault Refusal :=
  .refused (.unassignedOpcode 0x72#8)

/-- `(unassigned)` (44_memory_rmw_60_7F R1117). -/
def execUnassigned75 (_s : State) : Host.Outcome State Fault Refusal :=
  .refused (.unassignedOpcode 0x75#8)

/-- `NOP* inh` (44_memory_rmw_60_7F R1123). -/
def execNop7B (s : State) : Host.Outcome State Fault Refusal :=
  .next s

/-- `(unassigned)` (45_acc_a_80_9F R1135). -/
def execUnassigned87 (_s : State) : Host.Outcome State Fault Refusal :=
  .refused (.unassignedOpcode 0x87#8)

/-- `NOP* inh` (45_acc_a_80_9F R1143). -/
def execNop8F (s : State) : Host.Outcome State Fault Refusal :=
  .next s

/-- `(unassigned)` (47_acc_b_C0_DF R1199). -/
def execUnassignedC7 (_s : State) : Host.Outcome State Fault Refusal :=
  .refused (.unassignedOpcode 0xC7#8)

/-- `(unassigned)` (47_acc_b_C0_DF R1205). -/
def execUnassignedCD (_s : State) : Host.Outcome State Fault Refusal :=
  .refused (.unassignedOpcode 0xCD#8)

/-- `(unassigned)` (47_acc_b_C0_DF R1207). -/
def execUnassignedCF (_s : State) : Host.Outcome State Fault Refusal :=
  .refused (.unassignedOpcode 0xCF#8)

/-- `(unassigned sub-opcode)` (49_pages_10_11 R2900). -/
def execUnassignedPage10 (sub : Byte) (_s : State) : Host.Outcome State Fault Refusal :=
  .refused (.unassignedSubOpcode 0x10#8 sub)

/-- `(unassigned sub-opcode)` (49_pages_10_11 R3900). -/
def execUnassignedPage11 (sub : Byte) (_s : State) : Host.Outcome State Fault Refusal :=
  .refused (.unassignedSubOpcode 0x11#8 sub)

end Sys2Proof.Machine
end

