-- ==== Sys2Proof/Machine/ReadModifyWrite.lean ====
section
/-! DEFINITION. The read-modify-write instructions on memory: NEG, COM, LSR, ROR, ASR, ASL, ROL, DEC, INC, TST, CLR in direct,
indexed and extended mode (41_ops_00_1F, 44_memory_rmw_60_7F). -/

namespace Sys2Proof.Machine

/-- `NEG direct` (41_ops_00_1F R1000). -/
def execNegDirect (dd : Byte) (s : State) : Host.Outcome State Fault Refusal :=
  .next (modifyMem negOp (eaDirect dd s))

/-- `COM direct` (41_ops_00_1F R1003). -/
def execComDirect (dd : Byte) (s : State) : Host.Outcome State Fault Refusal :=
  .next (modifyMem comOp (eaDirect dd s))

/-- `LSR direct` (41_ops_00_1F R1004). -/
def execLsrDirect (dd : Byte) (s : State) : Host.Outcome State Fault Refusal :=
  .next (modifyMem lsrOp (eaDirect dd s))

/-- `ROR direct` (41_ops_00_1F R1006). -/
def execRorDirect (dd : Byte) (s : State) : Host.Outcome State Fault Refusal :=
  .next (modifyMem ror8 (eaDirect dd s))

/-- `ASR direct` (41_ops_00_1F R1007). -/
def execAsrDirect (dd : Byte) (s : State) : Host.Outcome State Fault Refusal :=
  .next (modifyMem asrOp (eaDirect dd s))

/-- `ASL direct` (41_ops_00_1F R1008). -/
def execAslDirect (dd : Byte) (s : State) : Host.Outcome State Fault Refusal :=
  .next (modifyMem aslOp (eaDirect dd s))

/-- `ROL direct` (41_ops_00_1F R1009). -/
def execRolDirect (dd : Byte) (s : State) : Host.Outcome State Fault Refusal :=
  .next (modifyMem rol8 (eaDirect dd s))

/-- `DEC direct` (41_ops_00_1F R1010). -/
def execDecDirect (dd : Byte) (s : State) : Host.Outcome State Fault Refusal :=
  .next (modifyMem decOp (eaDirect dd s))

/-- `INC direct` (41_ops_00_1F R1012). -/
def execIncDirect (dd : Byte) (s : State) : Host.Outcome State Fault Refusal :=
  .next (modifyMem incOp (eaDirect dd s))

/-- `TST direct` (41_ops_00_1F R1013). -/
def execTstDirect (dd : Byte) (s : State) : Host.Outcome State Fault Refusal :=
  .next (testMem (eaDirect dd s))

/-- `CLR direct` (41_ops_00_1F R1015). -/
def execClrDirect (dd : Byte) (s : State) : Host.Outcome State Fault Refusal :=
  .next (modifyMem clrOp (eaDirect dd s))

/-- `NEG idx` (44_memory_rmw_60_7F R1096). -/
def execNegIdx (ix : Indexed) (s : State) : Host.Outcome State Fault Refusal :=
  .next (modifyMem negOp (eaIndexed ix s))

/-- `COM idx` (44_memory_rmw_60_7F R1099). -/
def execComIdx (ix : Indexed) (s : State) : Host.Outcome State Fault Refusal :=
  .next (modifyMem comOp (eaIndexed ix s))

/-- `LSR idx` (44_memory_rmw_60_7F R1100). -/
def execLsrIdx (ix : Indexed) (s : State) : Host.Outcome State Fault Refusal :=
  .next (modifyMem lsrOp (eaIndexed ix s))

/-- `ROR idx` (44_memory_rmw_60_7F R1102). -/
def execRorIdx (ix : Indexed) (s : State) : Host.Outcome State Fault Refusal :=
  .next (modifyMem ror8 (eaIndexed ix s))

/-- `ASR idx` (44_memory_rmw_60_7F R1103). -/
def execAsrIdx (ix : Indexed) (s : State) : Host.Outcome State Fault Refusal :=
  .next (modifyMem asrOp (eaIndexed ix s))

/-- `ASL idx` (44_memory_rmw_60_7F R1104). -/
def execAslIdx (ix : Indexed) (s : State) : Host.Outcome State Fault Refusal :=
  .next (modifyMem aslOp (eaIndexed ix s))

/-- `ROL idx` (44_memory_rmw_60_7F R1105). -/
def execRolIdx (ix : Indexed) (s : State) : Host.Outcome State Fault Refusal :=
  .next (modifyMem rol8 (eaIndexed ix s))

/-- `DEC idx` (44_memory_rmw_60_7F R1106). -/
def execDecIdx (ix : Indexed) (s : State) : Host.Outcome State Fault Refusal :=
  .next (modifyMem decOp (eaIndexed ix s))

/-- `INC idx` (44_memory_rmw_60_7F R1108). -/
def execIncIdx (ix : Indexed) (s : State) : Host.Outcome State Fault Refusal :=
  .next (modifyMem incOp (eaIndexed ix s))

/-- `TST idx` (44_memory_rmw_60_7F R1109). -/
def execTstIdx (ix : Indexed) (s : State) : Host.Outcome State Fault Refusal :=
  .next (testMem (eaIndexed ix s))

/-- `CLR idx` (44_memory_rmw_60_7F R1111). -/
def execClrIdx (ix : Indexed) (s : State) : Host.Outcome State Fault Refusal :=
  .next (modifyMem clrOp (eaIndexed ix s))

/-- `NEG ext` (44_memory_rmw_60_7F R1112). -/
def execNegExt (ea : Word) (s : State) : Host.Outcome State Fault Refusal :=
  .next (modifyMem negOp (eaExtended ea s))

/-- `COM ext` (44_memory_rmw_60_7F R1115). -/
def execComExt (ea : Word) (s : State) : Host.Outcome State Fault Refusal :=
  .next (modifyMem comOp (eaExtended ea s))

/-- `LSR ext` (44_memory_rmw_60_7F R1116). -/
def execLsrExt (ea : Word) (s : State) : Host.Outcome State Fault Refusal :=
  .next (modifyMem lsrOp (eaExtended ea s))

/-- `ROR ext` (44_memory_rmw_60_7F R1118). -/
def execRorExt (ea : Word) (s : State) : Host.Outcome State Fault Refusal :=
  .next (modifyMem ror8 (eaExtended ea s))

/-- `ASR ext` (44_memory_rmw_60_7F R1119). -/
def execAsrExt (ea : Word) (s : State) : Host.Outcome State Fault Refusal :=
  .next (modifyMem asrOp (eaExtended ea s))

/-- `ASL ext` (44_memory_rmw_60_7F R1120). -/
def execAslExt (ea : Word) (s : State) : Host.Outcome State Fault Refusal :=
  .next (modifyMem aslOp (eaExtended ea s))

/-- `ROL ext` (44_memory_rmw_60_7F R1121). -/
def execRolExt (ea : Word) (s : State) : Host.Outcome State Fault Refusal :=
  .next (modifyMem rol8 (eaExtended ea s))

/-- `DEC ext` (44_memory_rmw_60_7F R1122). -/
def execDecExt (ea : Word) (s : State) : Host.Outcome State Fault Refusal :=
  .next (modifyMem decOp (eaExtended ea s))

/-- `INC ext` (44_memory_rmw_60_7F R1124). -/
def execIncExt (ea : Word) (s : State) : Host.Outcome State Fault Refusal :=
  .next (modifyMem incOp (eaExtended ea s))

/-- `TST ext` (44_memory_rmw_60_7F R1125). -/
def execTstExt (ea : Word) (s : State) : Host.Outcome State Fault Refusal :=
  .next (testMem (eaExtended ea s))

/-- `CLR ext` (44_memory_rmw_60_7F R1127). -/
def execClrExt (ea : Word) (s : State) : Host.Outcome State Fault Refusal :=
  .next (modifyMem clrOp (eaExtended ea s))

end Sys2Proof.Machine
end

