-- ==== Sys2Proof/Machine/Stack.lean ====
section
/-! DEFINITION. Push and pull, EXG and TFR (41_ops_00_1F, 42_ops_20_3F). -/

namespace Sys2Proof.Machine

/-- `EXG regpair` (41_ops_00_1F R1030). -/
def execExg (r1 : RegCode) (r2 : RegCode) (s : State) : Host.Outcome State Fault Refusal :=
  if isWide r1 == isWide r2 then .next (exchangeRegs r1 r2 s) else .refused .illegalRegisterPair

/-- `TFR regpair` (41_ops_00_1F R1031). -/
def execTfr (r1 : RegCode) (r2 : RegCode) (s : State) : Host.Outcome State Fault Refusal :=
  if isWide r1 == isWide r2 then .next (transferReg r1 r2 s) else .refused .illegalRegisterPair

/-- `PSHS stackmask` (42_ops_20_3F R1052). -/
def execPshs (mask : Byte) (s : State) : Host.Outcome State Fault Refusal :=
  .next (pushRegs .s mask s)

/-- `PULS stackmask` (42_ops_20_3F R1053). -/
def execPuls (mask : Byte) (s : State) : Host.Outcome State Fault Refusal :=
  .next (pullRegs .s mask s)

/-- `PSHU stackmask` (42_ops_20_3F R1054). -/
def execPshu (mask : Byte) (s : State) : Host.Outcome State Fault Refusal :=
  .next (pushRegs .u mask s)

/-- `PULU stackmask` (42_ops_20_3F R1055). -/
def execPulu (mask : Byte) (s : State) : Host.Outcome State Fault Refusal :=
  .next (pullRegs .u mask s)

end Sys2Proof.Machine
end

