-- ==== Sys2Proof/Machine/System.lean ====
section
/-! DEFINITION. The instructions on CC, the waits, the software interrupts and RTI (41_ops_00_1F, 42_ops_20_3F, 49_pages_10_11,
60_exceptions). -/

namespace Sys2Proof.Machine

/-- `SEV inh` (41_ops_00_1F R1011). -/
def execSev (s : State) : Host.Outcome State Fault Refusal :=
  .next (s.putCc (putV true s.cc))

/-- `SYNC inh` (41_ops_00_1F R1019). -/
def execSync (s : State) : Host.Outcome State Fault Refusal :=
  .next (s.putWait .sync)

/-- `ORCC #` (41_ops_00_1F R1026). -/
def execOrcc (ii : Byte) (s : State) : Host.Outcome State Fault Refusal :=
  .next (s.putCc (s.cc ||| ii))

/-- `ANDCC #` (41_ops_00_1F R1028). -/
def execAndcc (ii : Byte) (s : State) : Host.Outcome State Fault Refusal :=
  .next (s.putCc (s.cc &&& ii))

/-- `RTI inh` (42_ops_20_3F R1059). -/
def execRti (s : State) : Host.Outcome State Fault Refusal :=
  .next (returnFromInterrupt s)

/-- `CWAI #` (42_ops_20_3F R1060). -/
def execCwai (ii : Byte) (s : State) : Host.Outcome State Fault Refusal :=
  .next (clearAndWait ii s)

/-- `WAI inh` (42_ops_20_3F R1062). -/
def execWai (s : State) : Host.Outcome State Fault Refusal :=
  .next (s.putWait .wai)

/-- `SWI inh` (42_ops_20_3F R1063). -/
def execSwi (s : State) : Host.Outcome State Fault Refusal :=
  .next (enterInterrupt .swi true s)

/-- `SWI2 inh` (49_pages_10_11 R2063). -/
def execSwi2 (s : State) : Host.Outcome State Fault Refusal :=
  .next (enterInterrupt .swi2 true s)

/-- `SWI3 inh` (49_pages_10_11 R3063). -/
def execSwi3 (s : State) : Host.Outcome State Fault Refusal :=
  .next (enterInterrupt .swi3 true s)

end Sys2Proof.Machine
end

