-- ==== Sys2Proof/Machine/Dispatch.lean ====
section
/-! DEFINITION. The meaning of every instruction, one arm a constructor. -/

namespace Sys2Proof.Machine

def exec (i : Instr) (s : State) : Host.Outcome State Fault Refusal :=
  match i with
  | .negDirect dd => Sys2Proof.Machine.execNegDirect dd s
  | .nop01 => Sys2Proof.Machine.execNop01 s
  | .nop02 => Sys2Proof.Machine.execNop02 s
  | .comDirect dd => Sys2Proof.Machine.execComDirect dd s
  | .lsrDirect dd => Sys2Proof.Machine.execLsrDirect dd s
  | .nop05 => Sys2Proof.Machine.execNop05 s
  | .rorDirect dd => Sys2Proof.Machine.execRorDirect dd s
  | .asrDirect dd => Sys2Proof.Machine.execAsrDirect dd s
  | .aslDirect dd => Sys2Proof.Machine.execAslDirect dd s
  | .rolDirect dd => Sys2Proof.Machine.execRolDirect dd s
  | .decDirect dd => Sys2Proof.Machine.execDecDirect dd s
  | .sev => Sys2Proof.Machine.execSev s
  | .incDirect dd => Sys2Proof.Machine.execIncDirect dd s
  | .tstDirect dd => Sys2Proof.Machine.execTstDirect dd s
  | .jmpDirect dd => Sys2Proof.Machine.execJmpDirect dd s
  | .clrDirect dd => Sys2Proof.Machine.execClrDirect dd s
  | .nop => Sys2Proof.Machine.execNop s
  | .sync => Sys2Proof.Machine.execSync s
  | .unassigned14 => Sys2Proof.Machine.execUnassigned14 s
  | .unassigned15 => Sys2Proof.Machine.execUnassigned15 s
  | .lbra disp => Sys2Proof.Machine.execLbra disp s
  | .lbsr disp => Sys2Proof.Machine.execLbsr disp s
  | .nop18 => Sys2Proof.Machine.execNop18 s
  | .daa => Sys2Proof.Machine.execDaa s
  | .orcc ii => Sys2Proof.Machine.execOrcc ii s
  | .aba => Sys2Proof.Machine.execAba s
  | .andcc ii => Sys2Proof.Machine.execAndcc ii s
  | .sex => Sys2Proof.Machine.execSex s
  | .exg r1 r2 => Sys2Proof.Machine.execExg r1 r2 s
  | .tfr r1 r2 => Sys2Proof.Machine.execTfr r1 r2 s
  | .bra rr => Sys2Proof.Machine.execBra rr s
  | .brn rr => Sys2Proof.Machine.execBrn rr s
  | .bhi rr => Sys2Proof.Machine.execBhi rr s
  | .bls rr => Sys2Proof.Machine.execBls rr s
  | .bcc rr => Sys2Proof.Machine.execBcc rr s
  | .bcs rr => Sys2Proof.Machine.execBcs rr s
  | .bne rr => Sys2Proof.Machine.execBne rr s
  | .beq rr => Sys2Proof.Machine.execBeq rr s
  | .bvc rr => Sys2Proof.Machine.execBvc rr s
  | .bvs rr => Sys2Proof.Machine.execBvs rr s
  | .bpl rr => Sys2Proof.Machine.execBpl rr s
  | .bmi rr => Sys2Proof.Machine.execBmi rr s
  | .bge rr => Sys2Proof.Machine.execBge rr s
  | .blt rr => Sys2Proof.Machine.execBlt rr s
  | .bgt rr => Sys2Proof.Machine.execBgt rr s
  | .ble rr => Sys2Proof.Machine.execBle rr s
  | .leax ix => Sys2Proof.Machine.execLeax ix s
  | .leay ix => Sys2Proof.Machine.execLeay ix s
  | .leas ix => Sys2Proof.Machine.execLeas ix s
  | .leau ix => Sys2Proof.Machine.execLeau ix s
  | .pshs mask => Sys2Proof.Machine.execPshs mask s
  | .puls mask => Sys2Proof.Machine.execPuls mask s
  | .pshu mask => Sys2Proof.Machine.execPshu mask s
  | .pulu mask => Sys2Proof.Machine.execPulu mask s
  | .nop38 => Sys2Proof.Machine.execNop38 s
  | .rts => Sys2Proof.Machine.execRts s
  | .abx => Sys2Proof.Machine.execAbx s
  | .rti => Sys2Proof.Machine.execRti s
  | .cwai ii => Sys2Proof.Machine.execCwai ii s
  | .mul => Sys2Proof.Machine.execMul s
  | .wai => Sys2Proof.Machine.execWai s
  | .swi => Sys2Proof.Machine.execSwi s
  | .nega => Sys2Proof.Machine.execNega s
  | .unassigned41 => Sys2Proof.Machine.execUnassigned41 s
  | .unassigned42 => Sys2Proof.Machine.execUnassigned42 s
  | .coma => Sys2Proof.Machine.execComa s
  | .lsra => Sys2Proof.Machine.execLsra s
  | .nop45 => Sys2Proof.Machine.execNop45 s
  | .rora => Sys2Proof.Machine.execRora s
  | .asra => Sys2Proof.Machine.execAsra s
  | .asla => Sys2Proof.Machine.execAsla s
  | .rola => Sys2Proof.Machine.execRola s
  | .deca => Sys2Proof.Machine.execDeca s
  | .unassigned4B => Sys2Proof.Machine.execUnassigned4B s
  | .inca => Sys2Proof.Machine.execInca s
  | .tsta => Sys2Proof.Machine.execTsta s
  | .nop4E => Sys2Proof.Machine.execNop4E s
  | .clra => Sys2Proof.Machine.execClra s
  | .negb => Sys2Proof.Machine.execNegb s
  | .unassigned51 => Sys2Proof.Machine.execUnassigned51 s
  | .nop52 => Sys2Proof.Machine.execNop52 s
  | .comb => Sys2Proof.Machine.execComb s
  | .lsrb => Sys2Proof.Machine.execLsrb s
  | .unassigned55 => Sys2Proof.Machine.execUnassigned55 s
  | .rorb => Sys2Proof.Machine.execRorb s
  | .asrb => Sys2Proof.Machine.execAsrb s
  | .aslb => Sys2Proof.Machine.execAslb s
  | .rolb => Sys2Proof.Machine.execRolb s
  | .decb => Sys2Proof.Machine.execDecb s
  | .unassigned5B => Sys2Proof.Machine.execUnassigned5B s
  | .incb => Sys2Proof.Machine.execIncb s
  | .tstb => Sys2Proof.Machine.execTstb s
  | .unassigned5E => Sys2Proof.Machine.execUnassigned5E s
  | .clrb => Sys2Proof.Machine.execClrb s
  | .negIdx ix => Sys2Proof.Machine.execNegIdx ix s
  | .unassigned61 => Sys2Proof.Machine.execUnassigned61 s
  | .unassigned62 => Sys2Proof.Machine.execUnassigned62 s
  | .comIdx ix => Sys2Proof.Machine.execComIdx ix s
  | .lsrIdx ix => Sys2Proof.Machine.execLsrIdx ix s
  | .unassigned65 => Sys2Proof.Machine.execUnassigned65 s
  | .rorIdx ix => Sys2Proof.Machine.execRorIdx ix s
  | .asrIdx ix => Sys2Proof.Machine.execAsrIdx ix s
  | .aslIdx ix => Sys2Proof.Machine.execAslIdx ix s
  | .rolIdx ix => Sys2Proof.Machine.execRolIdx ix s
  | .decIdx ix => Sys2Proof.Machine.execDecIdx ix s
  | .unassigned6B => Sys2Proof.Machine.execUnassigned6B s
  | .incIdx ix => Sys2Proof.Machine.execIncIdx ix s
  | .tstIdx ix => Sys2Proof.Machine.execTstIdx ix s
  | .jmpIdx ix => Sys2Proof.Machine.execJmpIdx ix s
  | .clrIdx ix => Sys2Proof.Machine.execClrIdx ix s
  | .negExt ea => Sys2Proof.Machine.execNegExt ea s
  | .unassigned71 => Sys2Proof.Machine.execUnassigned71 s
  | .unassigned72 => Sys2Proof.Machine.execUnassigned72 s
  | .comExt ea => Sys2Proof.Machine.execComExt ea s
  | .lsrExt ea => Sys2Proof.Machine.execLsrExt ea s
  | .unassigned75 => Sys2Proof.Machine.execUnassigned75 s
  | .rorExt ea => Sys2Proof.Machine.execRorExt ea s
  | .asrExt ea => Sys2Proof.Machine.execAsrExt ea s
  | .aslExt ea => Sys2Proof.Machine.execAslExt ea s
  | .rolExt ea => Sys2Proof.Machine.execRolExt ea s
  | .decExt ea => Sys2Proof.Machine.execDecExt ea s
  | .nop7B => Sys2Proof.Machine.execNop7B s
  | .incExt ea => Sys2Proof.Machine.execIncExt ea s
  | .tstExt ea => Sys2Proof.Machine.execTstExt ea s
  | .jmpExt ea => Sys2Proof.Machine.execJmpExt ea s
  | .clrExt ea => Sys2Proof.Machine.execClrExt ea s
  | .subaImm ii => Sys2Proof.Machine.execSubaImm ii s
  | .cmpaImm ii => Sys2Proof.Machine.execCmpaImm ii s
  | .sbcaImm ii => Sys2Proof.Machine.execSbcaImm ii s
  | .subdImm imm => Sys2Proof.Machine.execSubdImm imm s
  | .andaImm ii => Sys2Proof.Machine.execAndaImm ii s
  | .bitaImm ii => Sys2Proof.Machine.execBitaImm ii s
  | .ldaImm ii => Sys2Proof.Machine.execLdaImm ii s
  | .unassigned87 => Sys2Proof.Machine.execUnassigned87 s
  | .eoraImm ii => Sys2Proof.Machine.execEoraImm ii s
  | .adcaImm ii => Sys2Proof.Machine.execAdcaImm ii s
  | .oraImm ii => Sys2Proof.Machine.execOraImm ii s
  | .addaImm ii => Sys2Proof.Machine.execAddaImm ii s
  | .cmpxImm imm => Sys2Proof.Machine.execCmpxImm imm s
  | .bsr rr => Sys2Proof.Machine.execBsr rr s
  | .ldxImm imm => Sys2Proof.Machine.execLdxImm imm s
  | .nop8F => Sys2Proof.Machine.execNop8F s
  | .subaDirect dd => Sys2Proof.Machine.execSubaDirect dd s
  | .cmpaDirect dd => Sys2Proof.Machine.execCmpaDirect dd s
  | .sbcaDirect dd => Sys2Proof.Machine.execSbcaDirect dd s
  | .subdDirect dd => Sys2Proof.Machine.execSubdDirect dd s
  | .andaDirect dd => Sys2Proof.Machine.execAndaDirect dd s
  | .bitaDirect dd => Sys2Proof.Machine.execBitaDirect dd s
  | .ldaDirect dd => Sys2Proof.Machine.execLdaDirect dd s
  | .staDirect dd => Sys2Proof.Machine.execStaDirect dd s
  | .eoraDirect dd => Sys2Proof.Machine.execEoraDirect dd s
  | .adcaDirect dd => Sys2Proof.Machine.execAdcaDirect dd s
  | .oraDirect dd => Sys2Proof.Machine.execOraDirect dd s
  | .addaDirect dd => Sys2Proof.Machine.execAddaDirect dd s
  | .cmpxDirect dd => Sys2Proof.Machine.execCmpxDirect dd s
  | .jsrDirect dd => Sys2Proof.Machine.execJsrDirect dd s
  | .ldxDirect dd => Sys2Proof.Machine.execLdxDirect dd s
  | .stxDirect dd => Sys2Proof.Machine.execStxDirect dd s
  | .subaIdx ix => Sys2Proof.Machine.execSubaIdx ix s
  | .cmpaIdx ix => Sys2Proof.Machine.execCmpaIdx ix s
  | .sbcaIdx ix => Sys2Proof.Machine.execSbcaIdx ix s
  | .subdIdx ix => Sys2Proof.Machine.execSubdIdx ix s
  | .andaIdx ix => Sys2Proof.Machine.execAndaIdx ix s
  | .bitaIdx ix => Sys2Proof.Machine.execBitaIdx ix s
  | .ldaIdx ix => Sys2Proof.Machine.execLdaIdx ix s
  | .staIdx ix => Sys2Proof.Machine.execStaIdx ix s
  | .eoraIdx ix => Sys2Proof.Machine.execEoraIdx ix s
  | .adcaIdx ix => Sys2Proof.Machine.execAdcaIdx ix s
  | .oraIdx ix => Sys2Proof.Machine.execOraIdx ix s
  | .addaIdx ix => Sys2Proof.Machine.execAddaIdx ix s
  | .cmpxIdx ix => Sys2Proof.Machine.execCmpxIdx ix s
  | .jsrIdx ix => Sys2Proof.Machine.execJsrIdx ix s
  | .ldxIdx ix => Sys2Proof.Machine.execLdxIdx ix s
  | .stxIdx ix => Sys2Proof.Machine.execStxIdx ix s
  | .subaExt ea => Sys2Proof.Machine.execSubaExt ea s
  | .cmpaExt ea => Sys2Proof.Machine.execCmpaExt ea s
  | .sbcaExt ea => Sys2Proof.Machine.execSbcaExt ea s
  | .subdExt ea => Sys2Proof.Machine.execSubdExt ea s
  | .andaExt ea => Sys2Proof.Machine.execAndaExt ea s
  | .bitaExt ea => Sys2Proof.Machine.execBitaExt ea s
  | .ldaExt ea => Sys2Proof.Machine.execLdaExt ea s
  | .staExt ea => Sys2Proof.Machine.execStaExt ea s
  | .eoraExt ea => Sys2Proof.Machine.execEoraExt ea s
  | .adcaExt ea => Sys2Proof.Machine.execAdcaExt ea s
  | .oraExt ea => Sys2Proof.Machine.execOraExt ea s
  | .addaExt ea => Sys2Proof.Machine.execAddaExt ea s
  | .cmpxExt ea => Sys2Proof.Machine.execCmpxExt ea s
  | .jsrExt ea => Sys2Proof.Machine.execJsrExt ea s
  | .ldxExt ea => Sys2Proof.Machine.execLdxExt ea s
  | .stxExt ea => Sys2Proof.Machine.execStxExt ea s
  | .subbImm ii => Sys2Proof.Machine.execSubbImm ii s
  | .cmpbImm ii => Sys2Proof.Machine.execCmpbImm ii s
  | .sbcbImm ii => Sys2Proof.Machine.execSbcbImm ii s
  | .adddImm imm => Sys2Proof.Machine.execAdddImm imm s
  | .andbImm ii => Sys2Proof.Machine.execAndbImm ii s
  | .bitbImm ii => Sys2Proof.Machine.execBitbImm ii s
  | .ldbImm ii => Sys2Proof.Machine.execLdbImm ii s
  | .unassignedC7 => Sys2Proof.Machine.execUnassignedC7 s
  | .eorbImm ii => Sys2Proof.Machine.execEorbImm ii s
  | .adcbImm ii => Sys2Proof.Machine.execAdcbImm ii s
  | .orbImm ii => Sys2Proof.Machine.execOrbImm ii s
  | .addbImm ii => Sys2Proof.Machine.execAddbImm ii s
  | .lddImm imm => Sys2Proof.Machine.execLddImm imm s
  | .unassignedCD => Sys2Proof.Machine.execUnassignedCD s
  | .lduImm imm => Sys2Proof.Machine.execLduImm imm s
  | .unassignedCF => Sys2Proof.Machine.execUnassignedCF s
  | .subbDirect dd => Sys2Proof.Machine.execSubbDirect dd s
  | .cmpbDirect dd => Sys2Proof.Machine.execCmpbDirect dd s
  | .sbcbDirect dd => Sys2Proof.Machine.execSbcbDirect dd s
  | .adddDirect dd => Sys2Proof.Machine.execAdddDirect dd s
  | .andbDirect dd => Sys2Proof.Machine.execAndbDirect dd s
  | .bitbDirect dd => Sys2Proof.Machine.execBitbDirect dd s
  | .ldbDirect dd => Sys2Proof.Machine.execLdbDirect dd s
  | .stbDirect dd => Sys2Proof.Machine.execStbDirect dd s
  | .eorbDirect dd => Sys2Proof.Machine.execEorbDirect dd s
  | .adcbDirect dd => Sys2Proof.Machine.execAdcbDirect dd s
  | .orbDirect dd => Sys2Proof.Machine.execOrbDirect dd s
  | .addbDirect dd => Sys2Proof.Machine.execAddbDirect dd s
  | .lddDirect dd => Sys2Proof.Machine.execLddDirect dd s
  | .stdDirect dd => Sys2Proof.Machine.execStdDirect dd s
  | .lduDirect dd => Sys2Proof.Machine.execLduDirect dd s
  | .stuDirect dd => Sys2Proof.Machine.execStuDirect dd s
  | .subbIdx ix => Sys2Proof.Machine.execSubbIdx ix s
  | .cmpbIdx ix => Sys2Proof.Machine.execCmpbIdx ix s
  | .sbcbIdx ix => Sys2Proof.Machine.execSbcbIdx ix s
  | .adddIdx ix => Sys2Proof.Machine.execAdddIdx ix s
  | .andbIdx ix => Sys2Proof.Machine.execAndbIdx ix s
  | .bitbIdx ix => Sys2Proof.Machine.execBitbIdx ix s
  | .ldbIdx ix => Sys2Proof.Machine.execLdbIdx ix s
  | .stbIdx ix => Sys2Proof.Machine.execStbIdx ix s
  | .eorbIdx ix => Sys2Proof.Machine.execEorbIdx ix s
  | .adcbIdx ix => Sys2Proof.Machine.execAdcbIdx ix s
  | .orbIdx ix => Sys2Proof.Machine.execOrbIdx ix s
  | .addbIdx ix => Sys2Proof.Machine.execAddbIdx ix s
  | .lddIdx ix => Sys2Proof.Machine.execLddIdx ix s
  | .stdIdx ix => Sys2Proof.Machine.execStdIdx ix s
  | .lduIdx ix => Sys2Proof.Machine.execLduIdx ix s
  | .stuIdx ix => Sys2Proof.Machine.execStuIdx ix s
  | .subbExt ea => Sys2Proof.Machine.execSubbExt ea s
  | .cmpbExt ea => Sys2Proof.Machine.execCmpbExt ea s
  | .sbcbExt ea => Sys2Proof.Machine.execSbcbExt ea s
  | .adddExt ea => Sys2Proof.Machine.execAdddExt ea s
  | .andbExt ea => Sys2Proof.Machine.execAndbExt ea s
  | .bitbExt ea => Sys2Proof.Machine.execBitbExt ea s
  | .ldbExt ea => Sys2Proof.Machine.execLdbExt ea s
  | .stbExt ea => Sys2Proof.Machine.execStbExt ea s
  | .eorbExt ea => Sys2Proof.Machine.execEorbExt ea s
  | .adcbExt ea => Sys2Proof.Machine.execAdcbExt ea s
  | .orbExt ea => Sys2Proof.Machine.execOrbExt ea s
  | .addbExt ea => Sys2Proof.Machine.execAddbExt ea s
  | .lddExt ea => Sys2Proof.Machine.execLddExt ea s
  | .stdExt ea => Sys2Proof.Machine.execStdExt ea s
  | .lduExt ea => Sys2Proof.Machine.execLduExt ea s
  | .stuExt ea => Sys2Proof.Machine.execStuExt ea s
  | .lbrn disp => Sys2Proof.Machine.execLbrn disp s
  | .lbhi disp => Sys2Proof.Machine.execLbhi disp s
  | .lbls disp => Sys2Proof.Machine.execLbls disp s
  | .lbcc disp => Sys2Proof.Machine.execLbcc disp s
  | .lbcs disp => Sys2Proof.Machine.execLbcs disp s
  | .lbne disp => Sys2Proof.Machine.execLbne disp s
  | .lbeq disp => Sys2Proof.Machine.execLbeq disp s
  | .lbvc disp => Sys2Proof.Machine.execLbvc disp s
  | .lbvs disp => Sys2Proof.Machine.execLbvs disp s
  | .lbpl disp => Sys2Proof.Machine.execLbpl disp s
  | .lbmi disp => Sys2Proof.Machine.execLbmi disp s
  | .lbge disp => Sys2Proof.Machine.execLbge disp s
  | .lblt disp => Sys2Proof.Machine.execLblt disp s
  | .lbgt disp => Sys2Proof.Machine.execLbgt disp s
  | .lble disp => Sys2Proof.Machine.execLble disp s
  | .swi2 => Sys2Proof.Machine.execSwi2 s
  | .cmpdImm imm => Sys2Proof.Machine.execCmpdImm imm s
  | .cmpyImm imm => Sys2Proof.Machine.execCmpyImm imm s
  | .ldyImm imm => Sys2Proof.Machine.execLdyImm imm s
  | .cmpdDirect dd => Sys2Proof.Machine.execCmpdDirect dd s
  | .cmpyDirect dd => Sys2Proof.Machine.execCmpyDirect dd s
  | .ldyDirect dd => Sys2Proof.Machine.execLdyDirect dd s
  | .styDirect dd => Sys2Proof.Machine.execStyDirect dd s
  | .cmpdIdx ix => Sys2Proof.Machine.execCmpdIdx ix s
  | .cmpyIdx ix => Sys2Proof.Machine.execCmpyIdx ix s
  | .ldyIdx ix => Sys2Proof.Machine.execLdyIdx ix s
  | .styIdx ix => Sys2Proof.Machine.execStyIdx ix s
  | .cmpdExt ea => Sys2Proof.Machine.execCmpdExt ea s
  | .cmpyExt ea => Sys2Proof.Machine.execCmpyExt ea s
  | .ldyExt ea => Sys2Proof.Machine.execLdyExt ea s
  | .styExt ea => Sys2Proof.Machine.execStyExt ea s
  | .ldsImm imm => Sys2Proof.Machine.execLdsImm imm s
  | .ldsDirect dd => Sys2Proof.Machine.execLdsDirect dd s
  | .stsDirect dd => Sys2Proof.Machine.execStsDirect dd s
  | .ldsIdx ix => Sys2Proof.Machine.execLdsIdx ix s
  | .stsIdx ix => Sys2Proof.Machine.execStsIdx ix s
  | .ldsExt ea => Sys2Proof.Machine.execLdsExt ea s
  | .stsExt ea => Sys2Proof.Machine.execStsExt ea s
  | .unassignedPage10 sub => Sys2Proof.Machine.execUnassignedPage10 sub s
  | .swi3 => Sys2Proof.Machine.execSwi3 s
  | .cmpuImm imm => Sys2Proof.Machine.execCmpuImm imm s
  | .cmpsImm imm => Sys2Proof.Machine.execCmpsImm imm s
  | .cmpuDirect dd => Sys2Proof.Machine.execCmpuDirect dd s
  | .cmpsDirect dd => Sys2Proof.Machine.execCmpsDirect dd s
  | .cmpuIdx ix => Sys2Proof.Machine.execCmpuIdx ix s
  | .cmpsIdx ix => Sys2Proof.Machine.execCmpsIdx ix s
  | .cmpuExt ea => Sys2Proof.Machine.execCmpuExt ea s
  | .cmpsExt ea => Sys2Proof.Machine.execCmpsExt ea s
  | .unassignedPage11 sub => Sys2Proof.Machine.execUnassignedPage11 sub s

end Sys2Proof.Machine
end

