-- ==== Sys2Proof/WellFormed.lean ====
section
/-! DEFINITION. Which terms of `Instr` are instructions: a register pair has one width (30_encoding R99), and the fallback
row of a prefixed page stands only for the sub-opcodes that no other row of the page lists (30_encoding R106, R107,
R114). Every other term is an instruction: each operand has exactly the values its field has. -/

namespace Sys2Proof

/-- The sub-opcodes assigned under prefix 0x10 (30_encoding R106). -/
def assignedPage10 : List Nat :=
  [0x21, 0x22, 0x23, 0x24, 0x25, 0x26, 0x27, 0x28, 0x29, 0x2A, 0x2B, 0x2C,
   0x2D, 0x2E, 0x2F, 0x3F, 0x83, 0x8C, 0x8E, 0x93, 0x9C, 0x9E, 0x9F, 0xA3,
   0xAC, 0xAE, 0xAF, 0xB3, 0xBC, 0xBE, 0xBF, 0xCE, 0xDE, 0xDF, 0xEE, 0xEF,
   0xFE, 0xFF]

/-- The sub-opcodes assigned under prefix 0x11 (30_encoding R107). -/
def assignedPage11 : List Nat :=
  [0x3F, 0x83, 0x8C, 0x93, 0x9C, 0xA3, 0xAC, 0xB3, 0xBC]

/-- The instruction is one the encoding admits. -/
def Instr.wf (i : Instr) : Bool :=
  match i with
  | .exg r1 r2 => Machine.isWide r1 == Machine.isWide r2
  | .tfr r1 r2 => Machine.isWide r1 == Machine.isWide r2
  | .unassignedPage10 sub => !assignedPage10.contains sub.toNat
  | .unassignedPage11 sub => !assignedPage11.contains sub.toNat
  | _ => true

end Sys2Proof
end

