-- ==== Sys2Proof/Decode.lean ====
section
/-! DEFINITION. Decoding: from the bytes of the instruction stream to an instruction (30_encoding R80 to R108, R112), total
on any bytes, and the encoder beside it. -/

namespace Sys2Proof

/-- Why the decoder refuses bytes. -/
inductive DecodeError where
  /-- A postbyte with no indexed form (30_encoding R97). -/
  | illegalPostbyte (postbyte : Byte)
  /-- A code with no register, or registers of two widths (30_encoding R99). -/
  | illegalRegisterPair
  /-- A byte without a row in the primary table; there is none (30_encoding R103). -/
  | unlistedOpcode (opcode : Byte)
deriving DecidableEq, Repr

/-- What reading from the front of a list of bytes gives. -/
inductive Parsed (α : Type) where
  /-- The bytes end before the value does. -/
  | more
  /-- The value, and the bytes after it. -/
  | ok (v : α) (rest : List Byte)
  /-- The bytes are refused. -/
  | bad (e : DecodeError)
deriving DecidableEq, Repr

/-- Read on after a value. -/
def Parsed.andThen {α β : Type} (p : Parsed α) (f : α → List Byte → Parsed β) : Parsed β :=
  match p with
  | .more => .more
  | .ok v rest => f v rest
  | .bad e => .bad e

/-- One byte. -/
def takeByte : List Byte → Parsed Byte
  | [] => .more
  | v :: rest => .ok v rest

/-- Two bytes, the high byte first (30_encoding R101). -/
def takeWord (bytes : List Byte) : Parsed Word :=
  (takeByte bytes).andThen fun h rest =>
    (takeByte rest).andThen fun l rest => .ok (Machine.joinBytes h l) rest

/-! ### Operands -/

/-- Field rr of the postbyte (30_encoding R95). -/
def idxRegOfBits (rr : BitVec 2) : IdxReg :=
  match rr.toNat with
  | 0 => .x
  | 1 => .y
  | 2 => .u
  | _ => .s

/-- The form a postbyte with bit 7 = 1 names, and its offset bytes (30_encoding R94, R96 to R98): `i` is the indirect bit,
`m` the mode. -/
def decodeMode (pb : Byte) (r : IdxReg) (i : Bool) (m : Nat) (rest : List Byte) : Parsed Indexed :=
  match m with
  | 0 => if i then .bad (.illegalPostbyte pb) else .ok (.inc1 r) rest
  | 1 => .ok (.inc2 r i) rest
  | 2 => if i then .bad (.illegalPostbyte pb) else .ok (.dec1 r) rest
  | 3 => .ok (.dec2 r i) rest
  | 4 => .ok (.plain r i) rest
  | 5 => .ok (.accB r i) rest
  | 6 => .ok (.accA r i) rest
  | 8 => (takeByte rest).andThen fun n rest => .ok (.off8 r n i) rest
  | 9 => (takeWord rest).andThen fun n rest => .ok (.off16 r n i) rest
  | 11 => .ok (.accD r i) rest
  | 12 => (takeByte rest).andThen fun n rest => .ok (.pcr8 r n i) rest
  | 13 => (takeWord rest).andThen fun n rest => .ok (.pcr16 r n i) rest
  | 15 =>
    if i && r = .x then (takeWord rest).andThen fun n rest => .ok (.extInd n) rest
    else .bad (.illegalPostbyte pb)
  | _ => .bad (.illegalPostbyte pb)

/-- The indexed operand: the postbyte and the bytes it calls for (30_encoding R87, R93 to R98). -/
def decodeIndexed (bytes : List Byte) : Parsed Indexed :=
  (takeByte bytes).andThen fun pb rest =>
    if pb.msb then
      decodeMode pb (idxRegOfBits (pb.extractLsb' 5 2)) (pb.getLsbD 4) (pb.extractLsb' 0 4).toNat rest
    else .ok (.off5 (idxRegOfBits (pb.extractLsb' 5 2)) (pb.extractLsb' 0 5)) rest

/-- A register code (30_encoding R99). -/
def regCodeOfBits (code : BitVec 4) : Option RegCode :=
  match code.toNat with
  | 0 => some .d
  | 1 => some .x
  | 2 => some .y
  | 3 => some .u
  | 4 => some .s
  | 5 => some .pc
  | 8 => some .a
  | 9 => some .b
  | 10 => some .cc
  | 11 => some .dp
  | _ => none

/-- The register pair of `EXG` and `TFR` (30_encoding R90, R99). -/
def decodeRegPair (f : RegCode → RegCode → Instr) (bytes : List Byte) : Parsed Instr :=
  (takeByte bytes).andThen fun pb rest =>
    match regCodeOfBits (pb.extractLsb' 4 4), regCodeOfBits (pb.extractLsb' 0 4) with
    | some r1, some r2 =>
      if Machine.isWide r1 == Machine.isWide r2 then .ok (f r1 r2) rest else .bad .illegalRegisterPair
    | _, _ => .bad .illegalRegisterPair

/-- The formats (30_encoding R82 to R91), each with the instruction its operand makes. -/
inductive Shape where
  | inh (i : Instr)
  | imm8 (f : Byte → Instr)
  | imm16 (f : Word → Instr)
  | direct (f : Byte → Instr)
  | extended (f : Word → Instr)
  | indexed (f : Indexed → Instr)
  | rel8 (f : Byte → Instr)
  | rel16 (f : Word → Instr)
  | regPair (f : RegCode → RegCode → Instr)
  | stackMask (f : Byte → Instr)

/-- The operand of a format (30_encoding R82 to R91). -/
def decodeShape (sh : Shape) (bytes : List Byte) : Parsed Instr :=
  match sh with
  | .inh i => .ok i bytes
  | .imm8 f => (takeByte bytes).andThen fun v rest => .ok (f v) rest
  | .imm16 f => (takeWord bytes).andThen fun v rest => .ok (f v) rest
  | .direct f => (takeByte bytes).andThen fun v rest => .ok (f v) rest
  | .extended f => (takeWord bytes).andThen fun v rest => .ok (f v) rest
  | .indexed f => (decodeIndexed bytes).andThen fun v rest => .ok (f v) rest
  | .rel8 f => (takeByte bytes).andThen fun v rest => .ok (f v) rest
  | .rel16 f => (takeWord bytes).andThen fun v rest => .ok (f v) rest
  | .regPair f => decodeRegPair f bytes
  | .stackMask f => (takeByte bytes).andThen fun v rest => .ok (f v) rest

/-! ### The opcode map -/

/-- Opcodes 0x00 to 0x0F (30_encoding R102). -/
def rows00 : List (Nat × Shape) :=
  [ (0x00, .direct .negDirect)
  , (0x01, .inh .nop01)
  , (0x02, .inh .nop02)
  , (0x03, .direct .comDirect)
  , (0x04, .direct .lsrDirect)
  , (0x05, .inh .nop05)
  , (0x06, .direct .rorDirect)
  , (0x07, .direct .asrDirect)
  , (0x08, .direct .aslDirect)
  , (0x09, .direct .rolDirect)
  , (0x0A, .direct .decDirect)
  , (0x0B, .inh .sev)
  , (0x0C, .direct .incDirect)
  , (0x0D, .direct .tstDirect)
  , (0x0E, .direct .jmpDirect)
  , (0x0F, .direct .clrDirect) ]

/-- Opcodes 0x10 to 0x1F (30_encoding R102). -/
def rows10 : List (Nat × Shape) :=
  [ (0x12, .inh .nop)
  , (0x13, .inh .sync)
  , (0x14, .inh .unassigned14)
  , (0x15, .inh .unassigned15)
  , (0x16, .rel16 .lbra)
  , (0x17, .rel16 .lbsr)
  , (0x18, .inh .nop18)
  , (0x19, .inh .daa)
  , (0x1A, .imm8 .orcc)
  , (0x1B, .inh .aba)
  , (0x1C, .imm8 .andcc)
  , (0x1D, .inh .sex)
  , (0x1E, .regPair .exg)
  , (0x1F, .regPair .tfr) ]

/-- Opcodes 0x20 to 0x2F (30_encoding R102). -/
def rows20 : List (Nat × Shape) :=
  [ (0x20, .rel8 .bra)
  , (0x21, .rel8 .brn)
  , (0x22, .rel8 .bhi)
  , (0x23, .rel8 .bls)
  , (0x24, .rel8 .bcc)
  , (0x25, .rel8 .bcs)
  , (0x26, .rel8 .bne)
  , (0x27, .rel8 .beq)
  , (0x28, .rel8 .bvc)
  , (0x29, .rel8 .bvs)
  , (0x2A, .rel8 .bpl)
  , (0x2B, .rel8 .bmi)
  , (0x2C, .rel8 .bge)
  , (0x2D, .rel8 .blt)
  , (0x2E, .rel8 .bgt)
  , (0x2F, .rel8 .ble) ]

/-- Opcodes 0x30 to 0x3F (30_encoding R102). -/
def rows30 : List (Nat × Shape) :=
  [ (0x30, .indexed .leax)
  , (0x31, .indexed .leay)
  , (0x32, .indexed .leas)
  , (0x33, .indexed .leau)
  , (0x34, .stackMask .pshs)
  , (0x35, .stackMask .puls)
  , (0x36, .stackMask .pshu)
  , (0x37, .stackMask .pulu)
  , (0x38, .inh .nop38)
  , (0x39, .inh .rts)
  , (0x3A, .inh .abx)
  , (0x3B, .inh .rti)
  , (0x3C, .imm8 .cwai)
  , (0x3D, .inh .mul)
  , (0x3E, .inh .wai)
  , (0x3F, .inh .swi) ]

/-- Opcodes 0x40 to 0x4F (30_encoding R102). -/
def rows40 : List (Nat × Shape) :=
  [ (0x40, .inh .nega)
  , (0x41, .inh .unassigned41)
  , (0x42, .inh .unassigned42)
  , (0x43, .inh .coma)
  , (0x44, .inh .lsra)
  , (0x45, .inh .nop45)
  , (0x46, .inh .rora)
  , (0x47, .inh .asra)
  , (0x48, .inh .asla)
  , (0x49, .inh .rola)
  , (0x4A, .inh .deca)
  , (0x4B, .inh .unassigned4B)
  , (0x4C, .inh .inca)
  , (0x4D, .inh .tsta)
  , (0x4E, .inh .nop4E)
  , (0x4F, .inh .clra) ]

/-- Opcodes 0x50 to 0x5F (30_encoding R102). -/
def rows50 : List (Nat × Shape) :=
  [ (0x50, .inh .negb)
  , (0x51, .inh .unassigned51)
  , (0x52, .inh .nop52)
  , (0x53, .inh .comb)
  , (0x54, .inh .lsrb)
  , (0x55, .inh .unassigned55)
  , (0x56, .inh .rorb)
  , (0x57, .inh .asrb)
  , (0x58, .inh .aslb)
  , (0x59, .inh .rolb)
  , (0x5A, .inh .decb)
  , (0x5B, .inh .unassigned5B)
  , (0x5C, .inh .incb)
  , (0x5D, .inh .tstb)
  , (0x5E, .inh .unassigned5E)
  , (0x5F, .inh .clrb) ]

/-- Opcodes 0x60 to 0x6F (30_encoding R102). -/
def rows60 : List (Nat × Shape) :=
  [ (0x60, .indexed .negIdx)
  , (0x61, .inh .unassigned61)
  , (0x62, .inh .unassigned62)
  , (0x63, .indexed .comIdx)
  , (0x64, .indexed .lsrIdx)
  , (0x65, .inh .unassigned65)
  , (0x66, .indexed .rorIdx)
  , (0x67, .indexed .asrIdx)
  , (0x68, .indexed .aslIdx)
  , (0x69, .indexed .rolIdx)
  , (0x6A, .indexed .decIdx)
  , (0x6B, .inh .unassigned6B)
  , (0x6C, .indexed .incIdx)
  , (0x6D, .indexed .tstIdx)
  , (0x6E, .indexed .jmpIdx)
  , (0x6F, .indexed .clrIdx) ]

/-- Opcodes 0x70 to 0x7F (30_encoding R102). -/
def rows70 : List (Nat × Shape) :=
  [ (0x70, .extended .negExt)
  , (0x71, .inh .unassigned71)
  , (0x72, .inh .unassigned72)
  , (0x73, .extended .comExt)
  , (0x74, .extended .lsrExt)
  , (0x75, .inh .unassigned75)
  , (0x76, .extended .rorExt)
  , (0x77, .extended .asrExt)
  , (0x78, .extended .aslExt)
  , (0x79, .extended .rolExt)
  , (0x7A, .extended .decExt)
  , (0x7B, .inh .nop7B)
  , (0x7C, .extended .incExt)
  , (0x7D, .extended .tstExt)
  , (0x7E, .extended .jmpExt)
  , (0x7F, .extended .clrExt) ]

/-- Opcodes 0x80 to 0x8F (30_encoding R102). -/
def rows80 : List (Nat × Shape) :=
  [ (0x80, .imm8 .subaImm)
  , (0x81, .imm8 .cmpaImm)
  , (0x82, .imm8 .sbcaImm)
  , (0x83, .imm16 .subdImm)
  , (0x84, .imm8 .andaImm)
  , (0x85, .imm8 .bitaImm)
  , (0x86, .imm8 .ldaImm)
  , (0x87, .inh .unassigned87)
  , (0x88, .imm8 .eoraImm)
  , (0x89, .imm8 .adcaImm)
  , (0x8A, .imm8 .oraImm)
  , (0x8B, .imm8 .addaImm)
  , (0x8C, .imm16 .cmpxImm)
  , (0x8D, .rel8 .bsr)
  , (0x8E, .imm16 .ldxImm)
  , (0x8F, .inh .nop8F) ]

/-- Opcodes 0x90 to 0x9F (30_encoding R102). -/
def rows90 : List (Nat × Shape) :=
  [ (0x90, .direct .subaDirect)
  , (0x91, .direct .cmpaDirect)
  , (0x92, .direct .sbcaDirect)
  , (0x93, .direct .subdDirect)
  , (0x94, .direct .andaDirect)
  , (0x95, .direct .bitaDirect)
  , (0x96, .direct .ldaDirect)
  , (0x97, .direct .staDirect)
  , (0x98, .direct .eoraDirect)
  , (0x99, .direct .adcaDirect)
  , (0x9A, .direct .oraDirect)
  , (0x9B, .direct .addaDirect)
  , (0x9C, .direct .cmpxDirect)
  , (0x9D, .direct .jsrDirect)
  , (0x9E, .direct .ldxDirect)
  , (0x9F, .direct .stxDirect) ]

/-- Opcodes 0xA0 to 0xAF (30_encoding R102). -/
def rowsA0 : List (Nat × Shape) :=
  [ (0xA0, .indexed .subaIdx)
  , (0xA1, .indexed .cmpaIdx)
  , (0xA2, .indexed .sbcaIdx)
  , (0xA3, .indexed .subdIdx)
  , (0xA4, .indexed .andaIdx)
  , (0xA5, .indexed .bitaIdx)
  , (0xA6, .indexed .ldaIdx)
  , (0xA7, .indexed .staIdx)
  , (0xA8, .indexed .eoraIdx)
  , (0xA9, .indexed .adcaIdx)
  , (0xAA, .indexed .oraIdx)
  , (0xAB, .indexed .addaIdx)
  , (0xAC, .indexed .cmpxIdx)
  , (0xAD, .indexed .jsrIdx)
  , (0xAE, .indexed .ldxIdx)
  , (0xAF, .indexed .stxIdx) ]

/-- Opcodes 0xB0 to 0xBF (30_encoding R102). -/
def rowsB0 : List (Nat × Shape) :=
  [ (0xB0, .extended .subaExt)
  , (0xB1, .extended .cmpaExt)
  , (0xB2, .extended .sbcaExt)
  , (0xB3, .extended .subdExt)
  , (0xB4, .extended .andaExt)
  , (0xB5, .extended .bitaExt)
  , (0xB6, .extended .ldaExt)
  , (0xB7, .extended .staExt)
  , (0xB8, .extended .eoraExt)
  , (0xB9, .extended .adcaExt)
  , (0xBA, .extended .oraExt)
  , (0xBB, .extended .addaExt)
  , (0xBC, .extended .cmpxExt)
  , (0xBD, .extended .jsrExt)
  , (0xBE, .extended .ldxExt)
  , (0xBF, .extended .stxExt) ]

/-- Opcodes 0xC0 to 0xCF (30_encoding R102). -/
def rowsC0 : List (Nat × Shape) :=
  [ (0xC0, .imm8 .subbImm)
  , (0xC1, .imm8 .cmpbImm)
  , (0xC2, .imm8 .sbcbImm)
  , (0xC3, .imm16 .adddImm)
  , (0xC4, .imm8 .andbImm)
  , (0xC5, .imm8 .bitbImm)
  , (0xC6, .imm8 .ldbImm)
  , (0xC7, .inh .unassignedC7)
  , (0xC8, .imm8 .eorbImm)
  , (0xC9, .imm8 .adcbImm)
  , (0xCA, .imm8 .orbImm)
  , (0xCB, .imm8 .addbImm)
  , (0xCC, .imm16 .lddImm)
  , (0xCD, .inh .unassignedCD)
  , (0xCE, .imm16 .lduImm)
  , (0xCF, .inh .unassignedCF) ]

/-- Opcodes 0xD0 to 0xDF (30_encoding R102). -/
def rowsD0 : List (Nat × Shape) :=
  [ (0xD0, .direct .subbDirect)
  , (0xD1, .direct .cmpbDirect)
  , (0xD2, .direct .sbcbDirect)
  , (0xD3, .direct .adddDirect)
  , (0xD4, .direct .andbDirect)
  , (0xD5, .direct .bitbDirect)
  , (0xD6, .direct .ldbDirect)
  , (0xD7, .direct .stbDirect)
  , (0xD8, .direct .eorbDirect)
  , (0xD9, .direct .adcbDirect)
  , (0xDA, .direct .orbDirect)
  , (0xDB, .direct .addbDirect)
  , (0xDC, .direct .lddDirect)
  , (0xDD, .direct .stdDirect)
  , (0xDE, .direct .lduDirect)
  , (0xDF, .direct .stuDirect) ]

/-- Opcodes 0xE0 to 0xEF (30_encoding R102). -/
def rowsE0 : List (Nat × Shape) :=
  [ (0xE0, .indexed .subbIdx)
  , (0xE1, .indexed .cmpbIdx)
  , (0xE2, .indexed .sbcbIdx)
  , (0xE3, .indexed .adddIdx)
  , (0xE4, .indexed .andbIdx)
  , (0xE5, .indexed .bitbIdx)
  , (0xE6, .indexed .ldbIdx)
  , (0xE7, .indexed .stbIdx)
  , (0xE8, .indexed .eorbIdx)
  , (0xE9, .indexed .adcbIdx)
  , (0xEA, .indexed .orbIdx)
  , (0xEB, .indexed .addbIdx)
  , (0xEC, .indexed .lddIdx)
  , (0xED, .indexed .stdIdx)
  , (0xEE, .indexed .lduIdx)
  , (0xEF, .indexed .stuIdx) ]

/-- Opcodes 0xF0 to 0xFF (30_encoding R102). -/
def rowsF0 : List (Nat × Shape) :=
  [ (0xF0, .extended .subbExt)
  , (0xF1, .extended .cmpbExt)
  , (0xF2, .extended .sbcbExt)
  , (0xF3, .extended .adddExt)
  , (0xF4, .extended .andbExt)
  , (0xF5, .extended .bitbExt)
  , (0xF6, .extended .ldbExt)
  , (0xF7, .extended .stbExt)
  , (0xF8, .extended .eorbExt)
  , (0xF9, .extended .adcbExt)
  , (0xFA, .extended .orbExt)
  , (0xFB, .extended .addbExt)
  , (0xFC, .extended .lddExt)
  , (0xFD, .extended .stdExt)
  , (0xFE, .extended .lduExt)
  , (0xFF, .extended .stuExt) ]

/-- The primary page: every byte but the two prefixes (30_encoding R102 to R105). -/
def primaryTable : List (Nat × Shape) :=
  rows00 ++ rows10 ++ rows20 ++ rows30 ++ rows40 ++ rows50 ++ rows60 ++ rows70 ++
  rows80 ++ rows90 ++ rowsA0 ++ rowsB0 ++ rowsC0 ++ rowsD0 ++ rowsE0 ++ rowsF0

/-- Prefix 0x10, the long branches and SWI2 (30_encoding R106). -/
def page10Branches : List (Nat × Shape) :=
  [ (0x21, .rel16 .lbrn)
  , (0x22, .rel16 .lbhi)
  , (0x23, .rel16 .lbls)
  , (0x24, .rel16 .lbcc)
  , (0x25, .rel16 .lbcs)
  , (0x26, .rel16 .lbne)
  , (0x27, .rel16 .lbeq)
  , (0x28, .rel16 .lbvc)
  , (0x29, .rel16 .lbvs)
  , (0x2A, .rel16 .lbpl)
  , (0x2B, .rel16 .lbmi)
  , (0x2C, .rel16 .lbge)
  , (0x2D, .rel16 .lblt)
  , (0x2E, .rel16 .lbgt)
  , (0x2F, .rel16 .lble)
  , (0x3F, .inh .swi2) ]

/-- Prefix 0x10, the other rows (30_encoding R106). -/
def page10Others : List (Nat × Shape) :=
  [ (0x83, .imm16 .cmpdImm)
  , (0x8C, .imm16 .cmpyImm)
  , (0x8E, .imm16 .ldyImm)
  , (0x93, .direct .cmpdDirect)
  , (0x9C, .direct .cmpyDirect)
  , (0x9E, .direct .ldyDirect)
  , (0x9F, .direct .styDirect)
  , (0xA3, .indexed .cmpdIdx)
  , (0xAC, .indexed .cmpyIdx)
  , (0xAE, .indexed .ldyIdx)
  , (0xAF, .indexed .styIdx)
  , (0xB3, .extended .cmpdExt)
  , (0xBC, .extended .cmpyExt)
  , (0xBE, .extended .ldyExt)
  , (0xBF, .extended .styExt)
  , (0xCE, .imm16 .ldsImm)
  , (0xDE, .direct .ldsDirect)
  , (0xDF, .direct .stsDirect)
  , (0xEE, .indexed .ldsIdx)
  , (0xEF, .indexed .stsIdx)
  , (0xFE, .extended .ldsExt)
  , (0xFF, .extended .stsExt) ]

/-- Prefix 0x10 (30_encoding R106). -/
def page10Table : List (Nat × Shape) := page10Branches ++ page10Others

/-- Prefix 0x11 (30_encoding R107). -/
def page11Table : List (Nat × Shape) :=
  [ (0x3F, .inh .swi3)
  , (0x83, .imm16 .cmpuImm)
  , (0x8C, .imm16 .cmpsImm)
  , (0x93, .direct .cmpuDirect)
  , (0x9C, .direct .cmpsDirect)
  , (0xA3, .indexed .cmpuIdx)
  , (0xAC, .indexed .cmpsIdx)
  , (0xB3, .extended .cmpuExt)
  , (0xBC, .extended .cmpsExt) ]

/-- The row of a table for an opcode byte. -/
def lookupShape : List (Nat × Shape) → Nat → Option Shape
  | [], _ => none
  | (k, sh) :: rest, op => if k = op then some sh else lookupShape rest op

/-- The sub-opcode after a prefix; one without a row is an unassigned pair (30_encoding R81, R106 to R108). -/
def decodePage (table : List (Nat × Shape)) (other : Byte → Instr) (bytes : List Byte) : Parsed Instr :=
  (takeByte bytes).andThen fun sub rest =>
    match lookupShape table sub.toNat with
    | some sh => decodeShape sh rest
    | none => .ok (other sub) rest

/-- Decoding (30_encoding R81). -/
def decode (bytes : List Byte) : Parsed Instr :=
  (takeByte bytes).andThen fun op rest =>
    if op = 0x10#8 then decodePage page10Table .unassignedPage10 rest
    else if op = 0x11#8 then decodePage page11Table .unassignedPage11 rest
    else
      match lookupShape primaryTable op.toNat with
      | some sh => decodeShape sh rest
      | none => .bad (.unlistedOpcode op)

/-! ### The encoder -/

/-- Field rr of the postbyte (30_encoding R95). -/
def idxRegBits : IdxReg → BitVec 2
  | .x => 0
  | .y => 1
  | .u => 2
  | .s => 3

/-- A postbyte with bit 7 = 1 (30_encoding R94). -/
def postbyte (r : IdxReg) (i : Bool) (m : BitVec 4) : Byte :=
  1#1 ++ idxRegBits r ++ BitVec.ofBool i ++ m

/-- The bytes of an indexed operand (30_encoding R93 to R98). -/
def encodeIndexed : Indexed → List Byte
  | .off5 r n => [0#1 ++ idxRegBits r ++ n]
  | .inc1 r => [postbyte r false 0]
  | .inc2 r i => [postbyte r i 1]
  | .dec1 r => [postbyte r false 2]
  | .dec2 r i => [postbyte r i 3]
  | .plain r i => [postbyte r i 4]
  | .accB r i => [postbyte r i 5]
  | .accA r i => [postbyte r i 6]
  | .off8 r n i => [postbyte r i 8, n]
  | .off16 r n i => [postbyte r i 9, Machine.hiByte n, Machine.loByte n]
  | .accD r i => [postbyte r i 11]
  | .pcr8 r n i => [postbyte r i 12, n]
  | .pcr16 r n i => [postbyte r i 13, Machine.hiByte n, Machine.loByte n]
  | .extInd n => [postbyte .x true 15, Machine.hiByte n, Machine.loByte n]

/-- A register code (30_encoding R99). -/
def regCodeBits : RegCode → BitVec 4
  | .d => 0
  | .x => 1
  | .y => 2
  | .u => 3
  | .s => 4
  | .pc => 5
  | .a => 8
  | .b => 9
  | .cc => 10
  | .dp => 11

/-- The bytes of an instruction, in the order of the instruction stream (30_encoding R80 to R107). -/
def encode (i : Instr) : List Byte :=
  match i with
  | .negDirect dd => [0x00, dd]
  | .nop01 => [0x01]
  | .nop02 => [0x02]
  | .comDirect dd => [0x03, dd]
  | .lsrDirect dd => [0x04, dd]
  | .nop05 => [0x05]
  | .rorDirect dd => [0x06, dd]
  | .asrDirect dd => [0x07, dd]
  | .aslDirect dd => [0x08, dd]
  | .rolDirect dd => [0x09, dd]
  | .decDirect dd => [0x0A, dd]
  | .sev => [0x0B]
  | .incDirect dd => [0x0C, dd]
  | .tstDirect dd => [0x0D, dd]
  | .jmpDirect dd => [0x0E, dd]
  | .clrDirect dd => [0x0F, dd]
  | .nop => [0x12]
  | .sync => [0x13]
  | .unassigned14 => [0x14]
  | .unassigned15 => [0x15]
  | .lbra disp => [0x16, Machine.hiByte disp, Machine.loByte disp]
  | .lbsr disp => [0x17, Machine.hiByte disp, Machine.loByte disp]
  | .nop18 => [0x18]
  | .daa => [0x19]
  | .orcc ii => [0x1A, ii]
  | .aba => [0x1B]
  | .andcc ii => [0x1C, ii]
  | .sex => [0x1D]
  | .exg r1 r2 => [0x1E, regCodeBits r1 ++ regCodeBits r2]
  | .tfr r1 r2 => [0x1F, regCodeBits r1 ++ regCodeBits r2]
  | .bra rr => [0x20, rr]
  | .brn rr => [0x21, rr]
  | .bhi rr => [0x22, rr]
  | .bls rr => [0x23, rr]
  | .bcc rr => [0x24, rr]
  | .bcs rr => [0x25, rr]
  | .bne rr => [0x26, rr]
  | .beq rr => [0x27, rr]
  | .bvc rr => [0x28, rr]
  | .bvs rr => [0x29, rr]
  | .bpl rr => [0x2A, rr]
  | .bmi rr => [0x2B, rr]
  | .bge rr => [0x2C, rr]
  | .blt rr => [0x2D, rr]
  | .bgt rr => [0x2E, rr]
  | .ble rr => [0x2F, rr]
  | .leax ix => 0x30 :: encodeIndexed ix
  | .leay ix => 0x31 :: encodeIndexed ix
  | .leas ix => 0x32 :: encodeIndexed ix
  | .leau ix => 0x33 :: encodeIndexed ix
  | .pshs mask => [0x34, mask]
  | .puls mask => [0x35, mask]
  | .pshu mask => [0x36, mask]
  | .pulu mask => [0x37, mask]
  | .nop38 => [0x38]
  | .rts => [0x39]
  | .abx => [0x3A]
  | .rti => [0x3B]
  | .cwai ii => [0x3C, ii]
  | .mul => [0x3D]
  | .wai => [0x3E]
  | .swi => [0x3F]
  | .nega => [0x40]
  | .unassigned41 => [0x41]
  | .unassigned42 => [0x42]
  | .coma => [0x43]
  | .lsra => [0x44]
  | .nop45 => [0x45]
  | .rora => [0x46]
  | .asra => [0x47]
  | .asla => [0x48]
  | .rola => [0x49]
  | .deca => [0x4A]
  | .unassigned4B => [0x4B]
  | .inca => [0x4C]
  | .tsta => [0x4D]
  | .nop4E => [0x4E]
  | .clra => [0x4F]
  | .negb => [0x50]
  | .unassigned51 => [0x51]
  | .nop52 => [0x52]
  | .comb => [0x53]
  | .lsrb => [0x54]
  | .unassigned55 => [0x55]
  | .rorb => [0x56]
  | .asrb => [0x57]
  | .aslb => [0x58]
  | .rolb => [0x59]
  | .decb => [0x5A]
  | .unassigned5B => [0x5B]
  | .incb => [0x5C]
  | .tstb => [0x5D]
  | .unassigned5E => [0x5E]
  | .clrb => [0x5F]
  | .negIdx ix => 0x60 :: encodeIndexed ix
  | .unassigned61 => [0x61]
  | .unassigned62 => [0x62]
  | .comIdx ix => 0x63 :: encodeIndexed ix
  | .lsrIdx ix => 0x64 :: encodeIndexed ix
  | .unassigned65 => [0x65]
  | .rorIdx ix => 0x66 :: encodeIndexed ix
  | .asrIdx ix => 0x67 :: encodeIndexed ix
  | .aslIdx ix => 0x68 :: encodeIndexed ix
  | .rolIdx ix => 0x69 :: encodeIndexed ix
  | .decIdx ix => 0x6A :: encodeIndexed ix
  | .unassigned6B => [0x6B]
  | .incIdx ix => 0x6C :: encodeIndexed ix
  | .tstIdx ix => 0x6D :: encodeIndexed ix
  | .jmpIdx ix => 0x6E :: encodeIndexed ix
  | .clrIdx ix => 0x6F :: encodeIndexed ix
  | .negExt ea => [0x70, Machine.hiByte ea, Machine.loByte ea]
  | .unassigned71 => [0x71]
  | .unassigned72 => [0x72]
  | .comExt ea => [0x73, Machine.hiByte ea, Machine.loByte ea]
  | .lsrExt ea => [0x74, Machine.hiByte ea, Machine.loByte ea]
  | .unassigned75 => [0x75]
  | .rorExt ea => [0x76, Machine.hiByte ea, Machine.loByte ea]
  | .asrExt ea => [0x77, Machine.hiByte ea, Machine.loByte ea]
  | .aslExt ea => [0x78, Machine.hiByte ea, Machine.loByte ea]
  | .rolExt ea => [0x79, Machine.hiByte ea, Machine.loByte ea]
  | .decExt ea => [0x7A, Machine.hiByte ea, Machine.loByte ea]
  | .nop7B => [0x7B]
  | .incExt ea => [0x7C, Machine.hiByte ea, Machine.loByte ea]
  | .tstExt ea => [0x7D, Machine.hiByte ea, Machine.loByte ea]
  | .jmpExt ea => [0x7E, Machine.hiByte ea, Machine.loByte ea]
  | .clrExt ea => [0x7F, Machine.hiByte ea, Machine.loByte ea]
  | .subaImm ii => [0x80, ii]
  | .cmpaImm ii => [0x81, ii]
  | .sbcaImm ii => [0x82, ii]
  | .subdImm imm => [0x83, Machine.hiByte imm, Machine.loByte imm]
  | .andaImm ii => [0x84, ii]
  | .bitaImm ii => [0x85, ii]
  | .ldaImm ii => [0x86, ii]
  | .unassigned87 => [0x87]
  | .eoraImm ii => [0x88, ii]
  | .adcaImm ii => [0x89, ii]
  | .oraImm ii => [0x8A, ii]
  | .addaImm ii => [0x8B, ii]
  | .cmpxImm imm => [0x8C, Machine.hiByte imm, Machine.loByte imm]
  | .bsr rr => [0x8D, rr]
  | .ldxImm imm => [0x8E, Machine.hiByte imm, Machine.loByte imm]
  | .nop8F => [0x8F]
  | .subaDirect dd => [0x90, dd]
  | .cmpaDirect dd => [0x91, dd]
  | .sbcaDirect dd => [0x92, dd]
  | .subdDirect dd => [0x93, dd]
  | .andaDirect dd => [0x94, dd]
  | .bitaDirect dd => [0x95, dd]
  | .ldaDirect dd => [0x96, dd]
  | .staDirect dd => [0x97, dd]
  | .eoraDirect dd => [0x98, dd]
  | .adcaDirect dd => [0x99, dd]
  | .oraDirect dd => [0x9A, dd]
  | .addaDirect dd => [0x9B, dd]
  | .cmpxDirect dd => [0x9C, dd]
  | .jsrDirect dd => [0x9D, dd]
  | .ldxDirect dd => [0x9E, dd]
  | .stxDirect dd => [0x9F, dd]
  | .subaIdx ix => 0xA0 :: encodeIndexed ix
  | .cmpaIdx ix => 0xA1 :: encodeIndexed ix
  | .sbcaIdx ix => 0xA2 :: encodeIndexed ix
  | .subdIdx ix => 0xA3 :: encodeIndexed ix
  | .andaIdx ix => 0xA4 :: encodeIndexed ix
  | .bitaIdx ix => 0xA5 :: encodeIndexed ix
  | .ldaIdx ix => 0xA6 :: encodeIndexed ix
  | .staIdx ix => 0xA7 :: encodeIndexed ix
  | .eoraIdx ix => 0xA8 :: encodeIndexed ix
  | .adcaIdx ix => 0xA9 :: encodeIndexed ix
  | .oraIdx ix => 0xAA :: encodeIndexed ix
  | .addaIdx ix => 0xAB :: encodeIndexed ix
  | .cmpxIdx ix => 0xAC :: encodeIndexed ix
  | .jsrIdx ix => 0xAD :: encodeIndexed ix
  | .ldxIdx ix => 0xAE :: encodeIndexed ix
  | .stxIdx ix => 0xAF :: encodeIndexed ix
  | .subaExt ea => [0xB0, Machine.hiByte ea, Machine.loByte ea]
  | .cmpaExt ea => [0xB1, Machine.hiByte ea, Machine.loByte ea]
  | .sbcaExt ea => [0xB2, Machine.hiByte ea, Machine.loByte ea]
  | .subdExt ea => [0xB3, Machine.hiByte ea, Machine.loByte ea]
  | .andaExt ea => [0xB4, Machine.hiByte ea, Machine.loByte ea]
  | .bitaExt ea => [0xB5, Machine.hiByte ea, Machine.loByte ea]
  | .ldaExt ea => [0xB6, Machine.hiByte ea, Machine.loByte ea]
  | .staExt ea => [0xB7, Machine.hiByte ea, Machine.loByte ea]
  | .eoraExt ea => [0xB8, Machine.hiByte ea, Machine.loByte ea]
  | .adcaExt ea => [0xB9, Machine.hiByte ea, Machine.loByte ea]
  | .oraExt ea => [0xBA, Machine.hiByte ea, Machine.loByte ea]
  | .addaExt ea => [0xBB, Machine.hiByte ea, Machine.loByte ea]
  | .cmpxExt ea => [0xBC, Machine.hiByte ea, Machine.loByte ea]
  | .jsrExt ea => [0xBD, Machine.hiByte ea, Machine.loByte ea]
  | .ldxExt ea => [0xBE, Machine.hiByte ea, Machine.loByte ea]
  | .stxExt ea => [0xBF, Machine.hiByte ea, Machine.loByte ea]
  | .subbImm ii => [0xC0, ii]
  | .cmpbImm ii => [0xC1, ii]
  | .sbcbImm ii => [0xC2, ii]
  | .adddImm imm => [0xC3, Machine.hiByte imm, Machine.loByte imm]
  | .andbImm ii => [0xC4, ii]
  | .bitbImm ii => [0xC5, ii]
  | .ldbImm ii => [0xC6, ii]
  | .unassignedC7 => [0xC7]
  | .eorbImm ii => [0xC8, ii]
  | .adcbImm ii => [0xC9, ii]
  | .orbImm ii => [0xCA, ii]
  | .addbImm ii => [0xCB, ii]
  | .lddImm imm => [0xCC, Machine.hiByte imm, Machine.loByte imm]
  | .unassignedCD => [0xCD]
  | .lduImm imm => [0xCE, Machine.hiByte imm, Machine.loByte imm]
  | .unassignedCF => [0xCF]
  | .subbDirect dd => [0xD0, dd]
  | .cmpbDirect dd => [0xD1, dd]
  | .sbcbDirect dd => [0xD2, dd]
  | .adddDirect dd => [0xD3, dd]
  | .andbDirect dd => [0xD4, dd]
  | .bitbDirect dd => [0xD5, dd]
  | .ldbDirect dd => [0xD6, dd]
  | .stbDirect dd => [0xD7, dd]
  | .eorbDirect dd => [0xD8, dd]
  | .adcbDirect dd => [0xD9, dd]
  | .orbDirect dd => [0xDA, dd]
  | .addbDirect dd => [0xDB, dd]
  | .lddDirect dd => [0xDC, dd]
  | .stdDirect dd => [0xDD, dd]
  | .lduDirect dd => [0xDE, dd]
  | .stuDirect dd => [0xDF, dd]
  | .subbIdx ix => 0xE0 :: encodeIndexed ix
  | .cmpbIdx ix => 0xE1 :: encodeIndexed ix
  | .sbcbIdx ix => 0xE2 :: encodeIndexed ix
  | .adddIdx ix => 0xE3 :: encodeIndexed ix
  | .andbIdx ix => 0xE4 :: encodeIndexed ix
  | .bitbIdx ix => 0xE5 :: encodeIndexed ix
  | .ldbIdx ix => 0xE6 :: encodeIndexed ix
  | .stbIdx ix => 0xE7 :: encodeIndexed ix
  | .eorbIdx ix => 0xE8 :: encodeIndexed ix
  | .adcbIdx ix => 0xE9 :: encodeIndexed ix
  | .orbIdx ix => 0xEA :: encodeIndexed ix
  | .addbIdx ix => 0xEB :: encodeIndexed ix
  | .lddIdx ix => 0xEC :: encodeIndexed ix
  | .stdIdx ix => 0xED :: encodeIndexed ix
  | .lduIdx ix => 0xEE :: encodeIndexed ix
  | .stuIdx ix => 0xEF :: encodeIndexed ix
  | .subbExt ea => [0xF0, Machine.hiByte ea, Machine.loByte ea]
  | .cmpbExt ea => [0xF1, Machine.hiByte ea, Machine.loByte ea]
  | .sbcbExt ea => [0xF2, Machine.hiByte ea, Machine.loByte ea]
  | .adddExt ea => [0xF3, Machine.hiByte ea, Machine.loByte ea]
  | .andbExt ea => [0xF4, Machine.hiByte ea, Machine.loByte ea]
  | .bitbExt ea => [0xF5, Machine.hiByte ea, Machine.loByte ea]
  | .ldbExt ea => [0xF6, Machine.hiByte ea, Machine.loByte ea]
  | .stbExt ea => [0xF7, Machine.hiByte ea, Machine.loByte ea]
  | .eorbExt ea => [0xF8, Machine.hiByte ea, Machine.loByte ea]
  | .adcbExt ea => [0xF9, Machine.hiByte ea, Machine.loByte ea]
  | .orbExt ea => [0xFA, Machine.hiByte ea, Machine.loByte ea]
  | .addbExt ea => [0xFB, Machine.hiByte ea, Machine.loByte ea]
  | .lddExt ea => [0xFC, Machine.hiByte ea, Machine.loByte ea]
  | .stdExt ea => [0xFD, Machine.hiByte ea, Machine.loByte ea]
  | .lduExt ea => [0xFE, Machine.hiByte ea, Machine.loByte ea]
  | .stuExt ea => [0xFF, Machine.hiByte ea, Machine.loByte ea]
  | .lbrn disp => [0x10, 0x21, Machine.hiByte disp, Machine.loByte disp]
  | .lbhi disp => [0x10, 0x22, Machine.hiByte disp, Machine.loByte disp]
  | .lbls disp => [0x10, 0x23, Machine.hiByte disp, Machine.loByte disp]
  | .lbcc disp => [0x10, 0x24, Machine.hiByte disp, Machine.loByte disp]
  | .lbcs disp => [0x10, 0x25, Machine.hiByte disp, Machine.loByte disp]
  | .lbne disp => [0x10, 0x26, Machine.hiByte disp, Machine.loByte disp]
  | .lbeq disp => [0x10, 0x27, Machine.hiByte disp, Machine.loByte disp]
  | .lbvc disp => [0x10, 0x28, Machine.hiByte disp, Machine.loByte disp]
  | .lbvs disp => [0x10, 0x29, Machine.hiByte disp, Machine.loByte disp]
  | .lbpl disp => [0x10, 0x2A, Machine.hiByte disp, Machine.loByte disp]
  | .lbmi disp => [0x10, 0x2B, Machine.hiByte disp, Machine.loByte disp]
  | .lbge disp => [0x10, 0x2C, Machine.hiByte disp, Machine.loByte disp]
  | .lblt disp => [0x10, 0x2D, Machine.hiByte disp, Machine.loByte disp]
  | .lbgt disp => [0x10, 0x2E, Machine.hiByte disp, Machine.loByte disp]
  | .lble disp => [0x10, 0x2F, Machine.hiByte disp, Machine.loByte disp]
  | .swi2 => [0x10, 0x3F]
  | .cmpdImm imm => [0x10, 0x83, Machine.hiByte imm, Machine.loByte imm]
  | .cmpyImm imm => [0x10, 0x8C, Machine.hiByte imm, Machine.loByte imm]
  | .ldyImm imm => [0x10, 0x8E, Machine.hiByte imm, Machine.loByte imm]
  | .cmpdDirect dd => [0x10, 0x93, dd]
  | .cmpyDirect dd => [0x10, 0x9C, dd]
  | .ldyDirect dd => [0x10, 0x9E, dd]
  | .styDirect dd => [0x10, 0x9F, dd]
  | .cmpdIdx ix => [0x10, 0xA3] ++ encodeIndexed ix
  | .cmpyIdx ix => [0x10, 0xAC] ++ encodeIndexed ix
  | .ldyIdx ix => [0x10, 0xAE] ++ encodeIndexed ix
  | .styIdx ix => [0x10, 0xAF] ++ encodeIndexed ix
  | .cmpdExt ea => [0x10, 0xB3, Machine.hiByte ea, Machine.loByte ea]
  | .cmpyExt ea => [0x10, 0xBC, Machine.hiByte ea, Machine.loByte ea]
  | .ldyExt ea => [0x10, 0xBE, Machine.hiByte ea, Machine.loByte ea]
  | .styExt ea => [0x10, 0xBF, Machine.hiByte ea, Machine.loByte ea]
  | .ldsImm imm => [0x10, 0xCE, Machine.hiByte imm, Machine.loByte imm]
  | .ldsDirect dd => [0x10, 0xDE, dd]
  | .stsDirect dd => [0x10, 0xDF, dd]
  | .ldsIdx ix => [0x10, 0xEE] ++ encodeIndexed ix
  | .stsIdx ix => [0x10, 0xEF] ++ encodeIndexed ix
  | .ldsExt ea => [0x10, 0xFE, Machine.hiByte ea, Machine.loByte ea]
  | .stsExt ea => [0x10, 0xFF, Machine.hiByte ea, Machine.loByte ea]
  | .unassignedPage10 sub => [0x10, sub]
  | .swi3 => [0x11, 0x3F]
  | .cmpuImm imm => [0x11, 0x83, Machine.hiByte imm, Machine.loByte imm]
  | .cmpsImm imm => [0x11, 0x8C, Machine.hiByte imm, Machine.loByte imm]
  | .cmpuDirect dd => [0x11, 0x93, dd]
  | .cmpsDirect dd => [0x11, 0x9C, dd]
  | .cmpuIdx ix => [0x11, 0xA3] ++ encodeIndexed ix
  | .cmpsIdx ix => [0x11, 0xAC] ++ encodeIndexed ix
  | .cmpuExt ea => [0x11, 0xB3, Machine.hiByte ea, Machine.loByte ea]
  | .cmpsExt ea => [0x11, 0xBC, Machine.hiByte ea, Machine.loByte ea]
  | .unassignedPage11 sub => [0x11, sub]

/-! ### The numbering of spec/opcode_table.json -/

/-- `n` bytes of a number, the least significant first. -/
def littleBytes : Nat → Nat → List Byte
  | 0, _ => []
  | n + 1, w => BitVec.ofNat 8 w :: littleBytes n (w / 256)

/-- The bytes, in the order of the instruction stream, of an instruction whose bits are `w`, with zeros up to the longest
instruction. A 16-bit row of the table is a prefixed pair and has its prefix in bits 15 to 8 (30_encoding R114, log 14);
otherwise the first byte is bits 7 to 0. -/
def tableBytes (nbits w : Nat) : List Byte :=
  if nbits = 16 ∧ (w / 256 = 0x10 ∨ w / 256 = 0x11) then
    [BitVec.ofNat 8 (w / 256), BitVec.ofNat 8 w, 0x00#8, 0x00#8, 0x00#8]
  else littleBytes 5 (w % 2 ^ nbits)

/-- The instruction the decoder reads from bits numbered as the opcode table numbers them. -/
def decodeTableWord (nbits w : Nat) : Option Instr :=
  match decode (tableBytes nbits w) with
  | .ok i _ => some i
  | .more => none
  | .bad _ => none

end Sys2Proof
end

