-- ==== Sys2Proof/Machine/Fetch.lean ====
section
/-! DEFINITION. Fetching the bytes of an instruction at PC (00_scope R12, 30_encoding R80, R81, 20_memory R66), and
placing an instruction where the next step fetches it. -/

namespace Sys2Proof.Machine

/-- `Fetch8()` (00_scope R12). -/
def fetch8 (s : State) : Byte × State :=
  let r := memRead8 s.pc s
  (r.1, r.2.putPc (r.2.pc + 1))

/-- Fetch bytes, at most `fuel` of them, until the bytes fetched are an instruction or are refused. -/
def fetchFrom : Nat → List Byte → State → Parsed Instr × State
  | 0, bytes, s => (decode bytes, s)
  | fuel + 1, bytes, s =>
    match decode bytes with
    | .more =>
      let r := fetch8 s
      fetchFrom fuel (bytes ++ [r.1]) r.2
    | .ok i rest => (.ok i rest, s)
    | .bad e => (.bad e, s)

/-- The next instruction, and the state with PC after it; the longest instruction has 5 bytes (30_encoding R112). -/
def fetchInstruction (s : State) : Parsed Instr × State := fetchFrom 5 [] s

/-- The name under which a step refuses bytes the decoder refuses. -/
def refusalOf : DecodeError → Refusal
  | .illegalPostbyte pb => .illegalPostbyte pb
  | .illegalRegisterPair => .illegalRegisterPair
  | .unlistedOpcode op => .unassignedOpcode op

/-- Store bytes at consecutive addresses, modulo 65536, without the bus: how the host places a program. -/
def placeBytes : List Byte → Word → List Host.Cell → List Host.Cell
  | [], _, m => m
  | v :: rest, a, m => placeBytes rest (a + 1) (Memory.write m a.toNat v)

/-- The state with bytes stored from PC on. -/
def placeAtPc (bytes : List Byte) (s : State) : State := s.putMem (placeBytes bytes s.pc s.mem)

end Sys2Proof.Machine
end

