-- ==== Sys2Proof/Machine/Sampling.lean ====
section
/-! DEFINITION. What surrounds the execution of an instruction in one step: the host's events, the sampling of the
interrupt lines, the wait states and the advance of the VIA (60_exceptions R203 to R206, R217 to R219, R226, R253,
R262, 70_reset_and_hazards R280, R289). -/

namespace Sys2Proof.Machine

/-- The level of the IRQ input: `irq_ext or ViaIrq()` (60_exceptions R253). -/
def irqLine (s : State) : Bool := s.irqExt || viaIrq s.via

/-- One event of the host (70_reset_and_hazards R289). An NMI edge is dropped while NMI is not armed (60_exceptions R206);
the release of RESET runs the reset sequence (70_reset_and_hazards R280). -/
def applyEvent (e : HostEvent) (s : State) : State :=
  match e with
  | .nmiEdge => if s.nmiArmed then s.putNmiPending true else s
  | .firq level => s.putFirqLine level
  | .irqExt level => s.putIrqExt level
  | .reset level =>
    if s.resetLine && !level then resetSequence (s.putResetLine false) else s.putResetLine level
  | .portA levels => s.putVia { s.via with pa := levels }
  | .portB levels => s.putVia (viaSetPortB levels s.via)
  | .ca1 level => s.putVia (viaSetCa1 level s.via)
  | .ca2 level => s.putVia (viaSetCa2 level s.via)
  | .cb1 level => s.putVia (viaSetCb1 level s.via)
  | .cb2 level => s.putVia (viaSetCb2 level s.via)

/-- The events of one frame, in order. -/
def applyEvents : List HostEvent → State → State
  | [], s => s
  | e :: rest, s => applyEvents rest (applyEvent e s)

/-- The host's part of a step: the next frame of `inputs`, if there is one (log 10). -/
def takeInputs (s : State) : State :=
  match s.inputs with
  | [] => s
  | frame :: rest => applyEvents frame (s.putInputs rest)

/-- The interrupt that would be taken at this sampling point: NMI, then FIRQ, then IRQ, each if its mask allows
(60_exceptions R204, R205, R226). -/
def requestedInterrupt (s : State) : Option Interrupt :=
  if s.nmiPending then some .nmi
  else if !ccF s.cc && s.firqLine then some .firq
  else if !ccI s.cc && irqLine s then some .irq
  else none

/-- Any line, masked or not, ends the wait of `SYNC` (60_exceptions R217, R226). -/
def wakeFromSync (s : State) : State :=
  if s.wait = .sync && (s.nmiPending || s.firqLine || irqLine s) then s.putWait .running else s

/-- The end of a step: the VIA advances by the ticks that come after the step's accesses, at least one (60_exceptions R226,
R262, log 7). -/
def finishStep (s : State) : State :=
  (s.putVia (viaAdvance (Config.extraCycles s.steps + 1) s.via)).putSteps (s.steps + 1)

/-- What the processor does at a sampling point. -/
inductive Activity where
  /-- Take an interrupt, stacking unless `CWAI` has stacked (60_exceptions R226). -/
  | interrupt (k : Interrupt) (stack : Bool)
  /-- Execute the next instruction. -/
  | execute
  /-- Wait. -/
  | idle
deriving DecidableEq, Repr

/-- The `case wait of` of 60_exceptions R226, after `wakeFromSync`. -/
def activity (s : State) : Activity :=
  match s.wait with
  | .running =>
    match requestedInterrupt s with
    | some k => .interrupt k true
    | none => .execute
  | .sync => .idle
  | .wai =>
    match requestedInterrupt s with
    | some k => .interrupt k true
    | none => .idle
  | .cwai =>
    match requestedInterrupt s with
    | some k => .interrupt k false
    | none => .idle

end Sys2Proof.Machine
end

