-- ==== Sys2Proof/Machine/Cycle.lean ====
section
/-! DEFINITION. The parts of one step put together (60_exceptions R226). -/

namespace Sys2Proof.Machine

/-- The end of a step that answers a next state. -/
def finishOutcome (o : Host.Outcome State Fault Refusal) : Host.Outcome State Fault Refusal :=
  match o with
  | .next t => .next (finishStep t)
  | .fault r => .fault r
  | .refused r => .refused r

/-- Fetch one instruction and execute it; a refused encoding stops the run (70_reset_and_hazards R290). -/
def runInstruction (s : State) : Host.Outcome State Fault Refusal :=
  let f := fetchInstruction s
  match f.1 with
  | .ok i _ => exec i f.2
  | .bad e => .refused (refusalOf e)
  | .more => .refused .longerThanFiveBytes

/-- What the processor does at the sampling point (60_exceptions R226). -/
def perform (s : State) : Host.Outcome State Fault Refusal :=
  match activity s with
  | .interrupt k stack => .next (enterInterrupt k stack (s.putWait .running))
  | .execute => runInstruction s
  | .idle => .next s

/-- `Step()` (60_exceptions R226). While RESET is asserted the processor executes nothing (70_reset_and_hazards R280,
log 12). -/
def stepOnce (s : State) : Host.Outcome State Fault Refusal :=
  let s := takeInputs s
  if s.resetLine then .next (s.putSteps (s.steps + 1))
  else finishOutcome (perform (wakeFromSync s))

end Sys2Proof.Machine
end

