-- ==== Sys2Proof/Machine/Step.lean ====
section
/-! DEFINITION. One step of the machine, `Step()` of 60_exceptions R226, and the placing of the instruction the next step
runs. -/

namespace Sys2Proof.Machine

/-- `Step()` (60_exceptions R226): the host's events, the sampling point, then an interrupt entry, one instruction or
nothing, then the VIA's ticks. -/
def step (s : State) : Host.Outcome State Fault Refusal := stepOnce s

/-- The state with an instruction, numbered as the opcode table numbers it, stored at PC, where `step` fetches: its bytes
and zeros up to the longest instruction (log 13, log 14). -/
def State.withFetchWord (s : State) (nbits w : Nat) : State := placeAtPc (tableBytes nbits w) s

end Sys2Proof.Machine
end

