-- ==== Sys2Proof/Safety.lean ====
section
/-! DEFINITION. The terms claims are stated in: the independent pieces of the state, what a step leaves alone, the invariant
of the machine, the encodings a run may safely meet, sequences of bytes on the bus, and the instructions of one shape as a
function of their operand forms. -/

namespace Sys2Proof.Machine

/-! ### Pieces of the state, and what is unchanged -/

/-- The eight bits of CC (10_state R26). -/
inductive Flag where
  | e | f | h | i | n | z | v | c
deriving DecidableEq, Repr

/-- The value of a flag. -/
def Flag.read (k : Flag) (s : State) : Bool :=
  match k with
  | .e => ccE s.cc
  | .f => ccF s.cc
  | .h => ccH s.cc
  | .i => ccI s.cc
  | .n => ccN s.cc
  | .z => ccZ s.cc
  | .v => ccV s.cc
  | .c => ccC s.cc

/-- The pieces of the state: every field of `State`, CC flag by flag. -/
inductive Part where
  | a | b | x | y | u | s | pc | dp
  | flag (k : Flag)
  | wait | nmiArmed | nmiPending | firqLine | irqExt | resetLine
  | mem | via | params | inputs | draws | steps
deriving DecidableEq, Repr

/-- Two states agree on a piece. -/
def Part.same (p : Part) (s t : State) : Prop :=
  match p with
  | .a => t.a = s.a
  | .b => t.b = s.b
  | .x => t.x = s.x
  | .y => t.y = s.y
  | .u => t.u = s.u
  | .s => t.s = s.s
  | .pc => t.pc = s.pc
  | .dp => t.dp = s.dp
  | .flag k => k.read t = k.read s
  | .wait => t.wait = s.wait
  | .nmiArmed => t.nmiArmed = s.nmiArmed
  | .nmiPending => t.nmiPending = s.nmiPending
  | .firqLine => t.firqLine = s.firqLine
  | .irqExt => t.irqExt = s.irqExt
  | .resetLine => t.resetLine = s.resetLine
  | .mem => t.mem = s.mem
  | .via => t.via = s.via
  | .params => t.params = s.params
  | .inputs => t.inputs = s.inputs
  | .draws => t.draws = s.draws
  | .steps => t.steps = s.steps

/-- From `s` to `t` nothing changes but the pieces listed. -/
def SameBut (out : List Part) (s t : State) : Prop := ∀ p, p ∉ out → p.same s t

/-- The pieces that hold flags. -/
def flagParts (l : List Flag) : List Part := l.map Part.flag

/-- All of CC. -/
def ccParts : List Part := flagParts [.e, .f, .h, .i, .n, .z, .v, .c]

/-- Each flag listed has the value listed with it. -/
def FlagsAre (t : State) (l : List (Flag × Bool)) : Prop := ∀ p ∈ l, p.1.read t = p.2

/-- Every byte of memory outside the addresses listed reads as before. -/
def BytesSameBut (addresses : List Word) (s t : State) : Prop :=
  ∀ a : Word, a ∉ addresses → Memory.read t.mem a.toNat = Memory.read s.mem a.toNat

/-- An address answers as memory and its reads have no side effect: RAM or ROM (20_memory R60). -/
def isPlain (p : Params) (a : Word) : Bool := addressKind p a == .ram || addressKind p a == .rom

/-- An address holds a byte that a program can write: RAM (20_memory R52). -/
def isRam (p : Params) (a : Word) : Bool := addressKind p a == .ram

/-- `n` addresses from `a` up, modulo 65536. -/
def addressesUp : Nat → Word → List Word
  | 0, _ => []
  | n + 1, a => a :: addressesUp n (a + 1)

/-- The word whose high byte a memory holds at `a` and whose low byte it holds at `a + 1` (20_memory R54). -/
def wordAt (m : List Host.Cell) (a : Word) : Word :=
  joinBytes (Memory.read m a.toNat) (Memory.read m (a + 1).toNat)

/-- Bytes stand in memory from an address on, modulo 65536, at addresses of RAM or ROM. -/
def BytesAt (s : State) : Word → List Byte → Prop
  | _, [] => True
  | a, v :: rest => isPlain s.params a = true ∧ Memory.read s.mem a.toNat = v ∧ BytesAt s (a + 1) rest

/-! ### The invariant -/

/-- What every step keeps: the memory is canonical, the shift counter is in its range (60_exceptions R258), an NMI edge is
remembered only if NMI is armed (R206), and a machine that `CWAI` stopped has E set (R218). -/
structure Inv (s : State) : Prop where
  memory : Memory.wf s.mem = true
  shiftCount : s.via.srCount ≤ 8
  nmi : s.nmiPending = true → s.nmiArmed = true
  entire : s.wait = .cwai → ccE s.cc = true

/-! ### The encodings the spec refuses -/

/-- The unassigned opcodes and sub-opcodes, which no machine may step on (30_encoding R105, R108). -/
def isUnassigned (i : Instr) : Bool :=
  match i with
  | .unassigned14 | .unassigned15 | .unassigned41 | .unassigned42 | .unassigned4B | .unassigned51
  | .unassigned55 | .unassigned5B | .unassigned5E | .unassigned61 | .unassigned62 | .unassigned65
  | .unassigned6B | .unassigned71 | .unassigned72 | .unassigned75 | .unassigned87 | .unassignedC7
  | .unassignedCD | .unassignedCF | .unassignedPage10 _ | .unassignedPage11 _ => true
  | _ => false

/-- The twenty unassigned primary bytes, as 30_encoding R105 lists them. -/
def unassignedBytes : List Byte :=
  [0x14, 0x15, 0x41, 0x42, 0x4B, 0x51, 0x55, 0x5B, 0x5E, 0x61, 0x62, 0x65, 0x6B, 0x71, 0x72, 0x75, 0x87, 0xC7, 0xCD, 0xCF]

/-- A postbyte that names no indexed form, as 30_encoding R97 lists them. -/
def isIllegalPostbyte (pb : Byte) : Bool :=
  [0x87#8, 0x8A#8, 0x8E#8].contains (pb &&& 0x8F#8) ||
  [0x90#8, 0x92#8, 0x8F#8].contains (pb &&& 0x9F#8) ||
  [0xBF#8, 0xDF#8, 0xFF#8].contains pb

/-! ### Vectors -/

/-- The vector of each interrupt, as the table of 60_exceptions R202 lists them. -/
def vectorOf : Interrupt → Word
  | .nmi => 0xFFFC
  | .swi => 0xFFFA
  | .irq => 0xFFF8
  | .firq => 0xFFF6
  | .swi2 => 0xFFF4
  | .swi3 => 0xFFF2

/-! ### Sequences of bytes on the bus -/

/-- Write bytes one below the other: the first at `sp - 1` (40_common_operations R138). -/
def storeDown : List Byte → Word → State → State
  | [], _, s => s
  | v :: rest, sp, s => storeDown rest (sp - 1) (memWrite8 (sp - 1) v s)

/-- Read bytes one above the other: the first at `sp`. -/
def readUp : Nat → Word → State → List Byte × State
  | 0, _, s => ([], s)
  | n + 1, sp, s =>
    let r := memRead8 sp s
    let l := readUp n (sp + 1) r.2
    (r.1 :: l.1, l.2)

/-- The two bytes of a word in the order they are pushed, the low byte first (40_common_operations R139). -/
def pushedWord (v : Word) : List Byte := [loByte v, hiByte v]

/-- Bytes that a mask bit selects. -/
def selected (bit : Bool) (l : List Byte) : List Byte := if bit then l else []

/-- The bytes that a push with a mask moves, in the order of the pushes (40_common_operations R160). -/
def pushedBytes (k : StackReg) (mask : Byte) (s : State) : List Byte :=
  selected (mask.getLsbD 7) (pushedWord s.pc) ++ selected (mask.getLsbD 6) (pushedWord (stackPointer (otherStack k) s)) ++
  selected (mask.getLsbD 5) (pushedWord s.y) ++ selected (mask.getLsbD 4) (pushedWord s.x) ++
  selected (mask.getLsbD 3) [s.dp] ++ selected (mask.getLsbD 2) [s.b] ++ selected (mask.getLsbD 1) [s.a] ++
  selected (mask.getLsbD 0) [s.cc]

/-- How many bytes the registers of mask bits below `k` take (30_encoding R100). -/
def maskOffset (mask : Byte) : Nat → Nat
  | 0 => 0
  | k + 1 => maskOffset mask k + (if mask.getLsbD k then (if k < 4 then 1 else 2) else 0)

/-- The byte at an offset of what was read. -/
def byteOf (l : List Byte) (n : Nat) : Byte := l.getD n 0

/-- The word at an offset of what was read, the high byte first. -/
def wordOf (l : List Byte) (n : Nat) : Word := joinBytes (byteOf l n) (byteOf l (n + 1))

/-- The twelve bytes of the entire frame with the CC given, in the order of the pushes (60_exceptions R207). -/
def entireFrame (cc : Byte) (s : State) : List Byte :=
  pushedWord s.pc ++ pushedWord s.u ++ pushedWord s.y ++ pushedWord s.x ++ [s.dp, s.b, s.a, cc]

/-! ### Operand forms -/

/-- The piece an accumulator is. -/
def Acc.part : Acc → Part
  | .a => .a
  | .b => .b

/-- The pieces a 16-bit register is; a load of S arms NMI (60_exceptions R206). -/
def Reg16.parts : Reg16 → List Part
  | .d => [.a, .b]
  | .x => [.x]
  | .y => [.y]
  | .u => [.u]
  | .s => [.s, .nmiArmed]

/-- The piece a base register is. -/
def idxPart : IdxReg → Part
  | .x => .x
  | .y => .y
  | .u => .u
  | .s => .s

/-- The piece a stack pointer is. -/
def StackReg.part : StackReg → Part
  | .s => .s
  | .u => .u

/-- The base register that an auto mode steps (30_encoding R94). -/
def indexedSteps : Indexed → List Part
  | .inc1 r | .inc2 r _ | .dec1 r | .dec2 r _ => [idxPart r]
  | _ => []

/-- The three forms of a memory operand (30_encoding R85 to R87). -/
inductive MemMode where
  | direct (dd : Byte)
  | indexed (ix : Indexed)
  | extended (ea : Word)
deriving DecidableEq, Repr

/-- The effective address, and the state once it is formed. -/
def MemMode.address (m : MemMode) (s : State) : Word × State :=
  match m with
  | .direct dd => eaDirect dd s
  | .indexed ix => eaIndexed ix s
  | .extended ea => eaExtended ea s

/-- The register the form steps. -/
def MemMode.steps : MemMode → List Part
  | .indexed ix => indexedSteps ix
  | .direct _ | .extended _ => []

/-- What reading a memory operand can change: the register stepped, the VIA and the count of free values. -/
def MemMode.touches (m : MemMode) : List Part := m.steps ++ [.via, .draws]

/-- An 8-bit source: immediate or memory. -/
inductive Source8 where
  | imm (ii : Byte)
  | mem (m : MemMode)
deriving DecidableEq, Repr

/-- The operand, and the state once it is read. -/
def Source8.read (src : Source8) (s : State) : Byte × State :=
  match src with
  | .imm ii => (ii, s)
  | .mem m => operand8 (m.address s)

def Source8.touches : Source8 → List Part
  | .imm _ => []
  | .mem m => m.touches

/-- A 16-bit source: immediate or memory. -/
inductive Source16 where
  | imm (v : Word)
  | mem (m : MemMode)
deriving DecidableEq, Repr

/-- The operand, and the state once it is read. -/
def Source16.read (src : Source16) (s : State) : Word × State :=
  match src with
  | .imm v => (v, s)
  | .mem m => operand16 (m.address s)

def Source16.touches : Source16 → List Part
  | .imm _ => []
  | .mem m => m.touches

/-- Where a one-operand instruction finds its operand and leaves its result: an accumulator or memory. -/
inductive Place where
  | acc (r : Acc)
  | mem (m : MemMode)
deriving DecidableEq, Repr

/-- The operand, and the state once it is read. -/
def Place.operand (p : Place) (s : State) : Byte × State :=
  match p with
  | .acc r => (readAcc r s, s)
  | .mem m => operand8 (m.address s)

/-- The state once the operand has been read and the result left in its place: one read, then one write of the same
address (40_common_operations R169). -/
def Place.leave (p : Place) (result : Byte) (s : State) : State :=
  match p with
  | .acc r => writeAcc r result s
  | .mem m => memWrite8 (m.address s).1 result (operand8 (m.address s)).2

/-- What leaving a result can change. -/
def Place.touches : Place → List Part
  | .acc r => [r.part]
  | .mem m => .mem :: m.touches

/-- The addresses stored to. -/
def Place.stored (p : Place) (s : State) : List Word :=
  match p with
  | .acc _ => []
  | .mem m => [(m.address s).1]

/-- An instruction that writes the pieces `written` of the state `m` its operand's reading gave, `touched` being what the
reading could change: nothing else differs from `m`, nothing else but `touched` differs from `s`. -/
def Writes (written touched : List Part) (s m t : State) : Prop :=
  SameBut written m t ∧ SameBut (written ++ touched) s t

/-- A one-operand instruction left `result` in its place and set the flags listed; the flags in `free` may hold
anything. -/
def Place.Done (p : Place) (result : Byte) (flags : List (Flag × Bool)) (free : List Flag) (s t : State) : Prop :=
  let written := flagParts (flags.map Prod.fst ++ free) ++ (if free.isEmpty then [] else [.draws])
  FlagsAre t flags ∧ Writes written p.touches s (p.leave result s) t ∧ BytesSameBut (p.stored s) s t

/-! ### The instructions of one shape -/

/-- The one-operand functions (rows 0x00 to 0x0F, 0x40 to 0x7F). -/
inductive UnaryOp where
  | neg | com | lsr | ror | asr | asl | rol | dec | inc | tst | clr
deriving DecidableEq, Repr

/-- The instruction that applies a one-operand function to an accumulator or to memory. -/
def unaryInstr (op : UnaryOp) (p : Place) : Instr :=
  match op, p with
  | .neg, .acc .a => .nega
  | .neg, .acc .b => .negb
  | .neg, .mem (.direct dd) => .negDirect dd
  | .neg, .mem (.indexed ix) => .negIdx ix
  | .neg, .mem (.extended ea) => .negExt ea
  | .com, .acc .a => .coma
  | .com, .acc .b => .comb
  | .com, .mem (.direct dd) => .comDirect dd
  | .com, .mem (.indexed ix) => .comIdx ix
  | .com, .mem (.extended ea) => .comExt ea
  | .lsr, .acc .a => .lsra
  | .lsr, .acc .b => .lsrb
  | .lsr, .mem (.direct dd) => .lsrDirect dd
  | .lsr, .mem (.indexed ix) => .lsrIdx ix
  | .lsr, .mem (.extended ea) => .lsrExt ea
  | .ror, .acc .a => .rora
  | .ror, .acc .b => .rorb
  | .ror, .mem (.direct dd) => .rorDirect dd
  | .ror, .mem (.indexed ix) => .rorIdx ix
  | .ror, .mem (.extended ea) => .rorExt ea
  | .asr, .acc .a => .asra
  | .asr, .acc .b => .asrb
  | .asr, .mem (.direct dd) => .asrDirect dd
  | .asr, .mem (.indexed ix) => .asrIdx ix
  | .asr, .mem (.extended ea) => .asrExt ea
  | .asl, .acc .a => .asla
  | .asl, .acc .b => .aslb
  | .asl, .mem (.direct dd) => .aslDirect dd
  | .asl, .mem (.indexed ix) => .aslIdx ix
  | .asl, .mem (.extended ea) => .aslExt ea
  | .rol, .acc .a => .rola
  | .rol, .acc .b => .rolb
  | .rol, .mem (.direct dd) => .rolDirect dd
  | .rol, .mem (.indexed ix) => .rolIdx ix
  | .rol, .mem (.extended ea) => .rolExt ea
  | .dec, .acc .a => .deca
  | .dec, .acc .b => .decb
  | .dec, .mem (.direct dd) => .decDirect dd
  | .dec, .mem (.indexed ix) => .decIdx ix
  | .dec, .mem (.extended ea) => .decExt ea
  | .inc, .acc .a => .inca
  | .inc, .acc .b => .incb
  | .inc, .mem (.direct dd) => .incDirect dd
  | .inc, .mem (.indexed ix) => .incIdx ix
  | .inc, .mem (.extended ea) => .incExt ea
  | .tst, .acc .a => .tsta
  | .tst, .acc .b => .tstb
  | .tst, .mem (.direct dd) => .tstDirect dd
  | .tst, .mem (.indexed ix) => .tstIdx ix
  | .tst, .mem (.extended ea) => .tstExt ea
  | .clr, .acc .a => .clra
  | .clr, .acc .b => .clrb
  | .clr, .mem (.direct dd) => .clrDirect dd
  | .clr, .mem (.indexed ix) => .clrIdx ix
  | .clr, .mem (.extended ea) => .clrExt ea

/-- The two-operand functions of an accumulator (rows 0x80 to 0xFB). -/
inductive BinaryOp where
  | sub | cmp | sbc | and | bit | eor | adc | or | add
deriving DecidableEq, Repr

/-- The instruction that applies a two-operand function to an accumulator and a source. -/
def binaryInstr (op : BinaryOp) (r : Acc) (src : Source8) : Instr :=
  match op, r, src with
  | .sub, .a, .imm ii => .subaImm ii
  | .sub, .a, .mem (.direct dd) => .subaDirect dd
  | .sub, .a, .mem (.indexed ix) => .subaIdx ix
  | .sub, .a, .mem (.extended ea) => .subaExt ea
  | .sub, .b, .imm ii => .subbImm ii
  | .sub, .b, .mem (.direct dd) => .subbDirect dd
  | .sub, .b, .mem (.indexed ix) => .subbIdx ix
  | .sub, .b, .mem (.extended ea) => .subbExt ea
  | .cmp, .a, .imm ii => .cmpaImm ii
  | .cmp, .a, .mem (.direct dd) => .cmpaDirect dd
  | .cmp, .a, .mem (.indexed ix) => .cmpaIdx ix
  | .cmp, .a, .mem (.extended ea) => .cmpaExt ea
  | .cmp, .b, .imm ii => .cmpbImm ii
  | .cmp, .b, .mem (.direct dd) => .cmpbDirect dd
  | .cmp, .b, .mem (.indexed ix) => .cmpbIdx ix
  | .cmp, .b, .mem (.extended ea) => .cmpbExt ea
  | .sbc, .a, .imm ii => .sbcaImm ii
  | .sbc, .a, .mem (.direct dd) => .sbcaDirect dd
  | .sbc, .a, .mem (.indexed ix) => .sbcaIdx ix
  | .sbc, .a, .mem (.extended ea) => .sbcaExt ea
  | .sbc, .b, .imm ii => .sbcbImm ii
  | .sbc, .b, .mem (.direct dd) => .sbcbDirect dd
  | .sbc, .b, .mem (.indexed ix) => .sbcbIdx ix
  | .sbc, .b, .mem (.extended ea) => .sbcbExt ea
  | .and, .a, .imm ii => .andaImm ii
  | .and, .a, .mem (.direct dd) => .andaDirect dd
  | .and, .a, .mem (.indexed ix) => .andaIdx ix
  | .and, .a, .mem (.extended ea) => .andaExt ea
  | .and, .b, .imm ii => .andbImm ii
  | .and, .b, .mem (.direct dd) => .andbDirect dd
  | .and, .b, .mem (.indexed ix) => .andbIdx ix
  | .and, .b, .mem (.extended ea) => .andbExt ea
  | .bit, .a, .imm ii => .bitaImm ii
  | .bit, .a, .mem (.direct dd) => .bitaDirect dd
  | .bit, .a, .mem (.indexed ix) => .bitaIdx ix
  | .bit, .a, .mem (.extended ea) => .bitaExt ea
  | .bit, .b, .imm ii => .bitbImm ii
  | .bit, .b, .mem (.direct dd) => .bitbDirect dd
  | .bit, .b, .mem (.indexed ix) => .bitbIdx ix
  | .bit, .b, .mem (.extended ea) => .bitbExt ea
  | .eor, .a, .imm ii => .eoraImm ii
  | .eor, .a, .mem (.direct dd) => .eoraDirect dd
  | .eor, .a, .mem (.indexed ix) => .eoraIdx ix
  | .eor, .a, .mem (.extended ea) => .eoraExt ea
  | .eor, .b, .imm ii => .eorbImm ii
  | .eor, .b, .mem (.direct dd) => .eorbDirect dd
  | .eor, .b, .mem (.indexed ix) => .eorbIdx ix
  | .eor, .b, .mem (.extended ea) => .eorbExt ea
  | .adc, .a, .imm ii => .adcaImm ii
  | .adc, .a, .mem (.direct dd) => .adcaDirect dd
  | .adc, .a, .mem (.indexed ix) => .adcaIdx ix
  | .adc, .a, .mem (.extended ea) => .adcaExt ea
  | .adc, .b, .imm ii => .adcbImm ii
  | .adc, .b, .mem (.direct dd) => .adcbDirect dd
  | .adc, .b, .mem (.indexed ix) => .adcbIdx ix
  | .adc, .b, .mem (.extended ea) => .adcbExt ea
  | .or, .a, .imm ii => .oraImm ii
  | .or, .a, .mem (.direct dd) => .oraDirect dd
  | .or, .a, .mem (.indexed ix) => .oraIdx ix
  | .or, .a, .mem (.extended ea) => .oraExt ea
  | .or, .b, .imm ii => .orbImm ii
  | .or, .b, .mem (.direct dd) => .orbDirect dd
  | .or, .b, .mem (.indexed ix) => .orbIdx ix
  | .or, .b, .mem (.extended ea) => .orbExt ea
  | .add, .a, .imm ii => .addaImm ii
  | .add, .a, .mem (.direct dd) => .addaDirect dd
  | .add, .a, .mem (.indexed ix) => .addaIdx ix
  | .add, .a, .mem (.extended ea) => .addaExt ea
  | .add, .b, .imm ii => .addbImm ii
  | .add, .b, .mem (.direct dd) => .addbDirect dd
  | .add, .b, .mem (.indexed ix) => .addbIdx ix
  | .add, .b, .mem (.extended ea) => .addbExt ea

/-- `LDA`, `LDB`. -/
def load8Instr (r : Acc) (src : Source8) : Instr :=
  match r, src with
  | .a, .imm ii => .ldaImm ii
  | .a, .mem (.direct dd) => .ldaDirect dd
  | .a, .mem (.indexed ix) => .ldaIdx ix
  | .a, .mem (.extended ea) => .ldaExt ea
  | .b, .imm ii => .ldbImm ii
  | .b, .mem (.direct dd) => .ldbDirect dd
  | .b, .mem (.indexed ix) => .ldbIdx ix
  | .b, .mem (.extended ea) => .ldbExt ea

/-- `STA`, `STB`. -/
def store8Instr (r : Acc) (m : MemMode) : Instr :=
  match r, m with
  | .a, .direct dd => .staDirect dd
  | .a, .indexed ix => .staIdx ix
  | .a, .extended ea => .staExt ea
  | .b, .direct dd => .stbDirect dd
  | .b, .indexed ix => .stbIdx ix
  | .b, .extended ea => .stbExt ea

/-- `ADDD`. -/
def adddInstr (src : Source16) : Instr :=
  match src with
  | .imm v => .adddImm v
  | .mem (.direct dd) => .adddDirect dd
  | .mem (.indexed ix) => .adddIdx ix
  | .mem (.extended ea) => .adddExt ea

/-- `SUBD`. -/
def subdInstr (src : Source16) : Instr :=
  match src with
  | .imm v => .subdImm v
  | .mem (.direct dd) => .subdDirect dd
  | .mem (.indexed ix) => .subdIdx ix
  | .mem (.extended ea) => .subdExt ea

/-- The 16-bit compares. -/
def cmp16Instr (r : Reg16) (src : Source16) : Instr :=
  match r, src with
  | .d, .imm v => .cmpdImm v
  | .d, .mem (.direct dd) => .cmpdDirect dd
  | .d, .mem (.indexed ix) => .cmpdIdx ix
  | .d, .mem (.extended ea) => .cmpdExt ea
  | .x, .imm v => .cmpxImm v
  | .x, .mem (.direct dd) => .cmpxDirect dd
  | .x, .mem (.indexed ix) => .cmpxIdx ix
  | .x, .mem (.extended ea) => .cmpxExt ea
  | .y, .imm v => .cmpyImm v
  | .y, .mem (.direct dd) => .cmpyDirect dd
  | .y, .mem (.indexed ix) => .cmpyIdx ix
  | .y, .mem (.extended ea) => .cmpyExt ea
  | .u, .imm v => .cmpuImm v
  | .u, .mem (.direct dd) => .cmpuDirect dd
  | .u, .mem (.indexed ix) => .cmpuIdx ix
  | .u, .mem (.extended ea) => .cmpuExt ea
  | .s, .imm v => .cmpsImm v
  | .s, .mem (.direct dd) => .cmpsDirect dd
  | .s, .mem (.indexed ix) => .cmpsIdx ix
  | .s, .mem (.extended ea) => .cmpsExt ea

/-- The 16-bit loads. -/
def load16Instr (r : Reg16) (src : Source16) : Instr :=
  match r, src with
  | .d, .imm v => .lddImm v
  | .d, .mem (.direct dd) => .lddDirect dd
  | .d, .mem (.indexed ix) => .lddIdx ix
  | .d, .mem (.extended ea) => .lddExt ea
  | .x, .imm v => .ldxImm v
  | .x, .mem (.direct dd) => .ldxDirect dd
  | .x, .mem (.indexed ix) => .ldxIdx ix
  | .x, .mem (.extended ea) => .ldxExt ea
  | .y, .imm v => .ldyImm v
  | .y, .mem (.direct dd) => .ldyDirect dd
  | .y, .mem (.indexed ix) => .ldyIdx ix
  | .y, .mem (.extended ea) => .ldyExt ea
  | .u, .imm v => .lduImm v
  | .u, .mem (.direct dd) => .lduDirect dd
  | .u, .mem (.indexed ix) => .lduIdx ix
  | .u, .mem (.extended ea) => .lduExt ea
  | .s, .imm v => .ldsImm v
  | .s, .mem (.direct dd) => .ldsDirect dd
  | .s, .mem (.indexed ix) => .ldsIdx ix
  | .s, .mem (.extended ea) => .ldsExt ea

/-- The 16-bit stores. -/
def store16Instr (r : Reg16) (m : MemMode) : Instr :=
  match r, m with
  | .d, .direct dd => .stdDirect dd
  | .d, .indexed ix => .stdIdx ix
  | .d, .extended ea => .stdExt ea
  | .x, .direct dd => .stxDirect dd
  | .x, .indexed ix => .stxIdx ix
  | .x, .extended ea => .stxExt ea
  | .y, .direct dd => .styDirect dd
  | .y, .indexed ix => .styIdx ix
  | .y, .extended ea => .styExt ea
  | .u, .direct dd => .stuDirect dd
  | .u, .indexed ix => .stuIdx ix
  | .u, .extended ea => .stuExt ea
  | .s, .direct dd => .stsDirect dd
  | .s, .indexed ix => .stsIdx ix
  | .s, .extended ea => .stsExt ea

/-- `LEAX`, `LEAY`, `LEAU`, `LEAS`. -/
def leaInstr (r : IdxReg) (ix : Indexed) : Instr :=
  match r with
  | .x => .leax ix
  | .y => .leay ix
  | .u => .leau ix
  | .s => .leas ix

/-- The short branches. -/
def branchInstr (c : Cond) (rr : Byte) : Instr :=
  match c with
  | .always => .bra rr
  | .never => .brn rr
  | .hi => .bhi rr
  | .ls => .bls rr
  | .carryClear => .bcc rr
  | .carrySet => .bcs rr
  | .ne => .bne rr
  | .eq => .beq rr
  | .overflowClear => .bvc rr
  | .overflowSet => .bvs rr
  | .pl => .bpl rr
  | .mi => .bmi rr
  | .ge => .bge rr
  | .lt => .blt rr
  | .gt => .bgt rr
  | .le => .ble rr

/-- The long branches. -/
def longBranchInstr (c : Cond) (disp : Word) : Instr :=
  match c with
  | .always => .lbra disp
  | .never => .lbrn disp
  | .hi => .lbhi disp
  | .ls => .lbls disp
  | .carryClear => .lbcc disp
  | .carrySet => .lbcs disp
  | .ne => .lbne disp
  | .eq => .lbeq disp
  | .overflowClear => .lbvc disp
  | .overflowSet => .lbvs disp
  | .pl => .lbpl disp
  | .mi => .lbmi disp
  | .ge => .lbge disp
  | .lt => .lblt disp
  | .gt => .lbgt disp
  | .le => .lble disp

/-- `JMP`. -/
def jmpInstr (m : MemMode) : Instr :=
  match m with
  | .direct dd => .jmpDirect dd
  | .indexed ix => .jmpIdx ix
  | .extended ea => .jmpExt ea

/-- `JSR`. -/
def jsrInstr (m : MemMode) : Instr :=
  match m with
  | .direct dd => .jsrDirect dd
  | .indexed ix => .jsrIdx ix
  | .extended ea => .jsrExt ea

/-- `PSHS`, `PSHU`. -/
def pushInstr (k : StackReg) (mask : Byte) : Instr :=
  match k with
  | .s => .pshs mask
  | .u => .pshu mask

/-- `PULS`, `PULU`. -/
def pullInstr (k : StackReg) (mask : Byte) : Instr :=
  match k with
  | .s => .puls mask
  | .u => .pulu mask

/-- `NOP` and the ten bytes treated as NOP (30_encoding R104). -/
def nopInstrs : List Instr :=
  [.nop01, .nop02, .nop05, .nop, .nop18, .nop38, .nop45, .nop4E, .nop52, .nop7B, .nop8F]

/-- The software interrupt instructions. -/
def swiInstr : Interrupt → Option Instr
  | .swi => some .swi
  | .swi2 => some .swi2
  | .swi3 => some .swi3
  | .nmi | .firq | .irq => none

/-! ### Meanings of results -/

/-- The branch table: whether a condition holds of N, Z, V and C (40_common_operations R159). -/
def branchTaken (c : Cond) (n z v c' : Bool) : Bool :=
  match c with
  | .always => true
  | .never => false
  | .hi => c' == false && z == false
  | .ls => c' == true || z == true
  | .carryClear => c' == false
  | .carrySet => c' == true
  | .ne => z == false
  | .eq => z == true
  | .overflowClear => v == false
  | .overflowSet => v == true
  | .pl => n == false
  | .mi => n == true
  | .ge => Bool.xor n v == false
  | .lt => Bool.xor n v == true
  | .gt => z == false && Bool.xor n v == false
  | .le => z == true || Bool.xor n v == true

/-- The sum of an accumulator, an operand and a carry, with its flags (40_common_operations R141). -/
def Sum8 (r : Acc) (m : Byte) (cin : Bool) (touched : List Part) (s read t : State) : Prop :=
  let a := readAcc r s
  let sum := a.toNat + m.toNat + cin.toNat
  let res := readAcc r t
  res.toNat = sum % 256 ∧
  FlagsAre t [(.h, decide (15 < a.toNat % 16 + m.toNat % 16 + cin.toNat)), (.n, res.msb), (.z, res == 0),
    (.v, a.msb == m.msb && res.msb != a.msb), (.c, decide (255 < sum))] ∧
  Writes (r.part :: flagParts [.h, .n, .z, .v, .c]) touched s read t

/-- The flags of the difference `a - m - bin`, whose result is `res` (40_common_operations R142). -/
def differenceFlags (a m : Byte) (bin : Bool) (res : Byte) : List (Flag × Bool) :=
  [(.n, res.msb), (.z, res == 0), (.v, a.msb != m.msb && res.msb != a.msb),
    (.c, decide (a.toNat < m.toNat + bin.toNat))]

/-- The byte `a - m - bin` modulo 256 (40_common_operations R142). -/
def IsDifference (a m : Byte) (bin : Bool) (res : Byte) : Prop :=
  (res.toNat : Int) = ((a.toNat : Int) - m.toNat - bin.toNat) % 256

/-- The pieces a subtraction writes besides its result: H is left undefined (40_common_operations R142). -/
def differenceParts : List Part := flagParts [.h, .n, .z, .v, .c] ++ [.draws]

/-- The flags of the difference `a - m` of words, whose result is `res` (40_common_operations R157). -/
def differenceFlags16 (a m res : Word) : List (Flag × Bool) :=
  [(.n, res.msb), (.z, res == 0), (.v, a.msb != m.msb && res.msb != a.msb), (.c, decide (a.toNat < m.toNat))]

/-- The flags of a value loaded, stored, tested or computed by a logical operation (40_common_operations R143, R144,
R154, R158). -/
def valueFlags {w : Nat} (v : BitVec w) : List (Flag × Bool) := [(.n, v.msb), (.z, v == 0), (.v, false)]

/-- The flags those instructions write. -/
def nzvParts : List Part := flagParts [.n, .z, .v]

/-- A number of two's complement does not fit in `bits` bits. -/
def overflows (bits : Nat) (v : Int) : Bool := decide (v < -(2 ^ (bits - 1) : Int)) || decide (2 ^ (bits - 1) ≤ v)

/-- What a branch after `CMP` or `SUB` decides about the numbers compared (40_common_operations R159). -/
def orderHolds {w : Nat} (c : Cond) (a m : BitVec w) : Bool :=
  match c with
  | .always => true
  | .never => false
  | .hi => decide (m.toNat < a.toNat)
  | .ls => decide (a.toNat ≤ m.toNat)
  | .carryClear => decide (m.toNat ≤ a.toNat)
  | .carrySet => decide (a.toNat < m.toNat)
  | .ne => decide (a.toNat ≠ m.toNat)
  | .eq => decide (a.toNat = m.toNat)
  | .overflowClear => !overflows w (a.toInt - m.toInt)
  | .overflowSet => overflows w (a.toInt - m.toInt)
  | .pl => !(a - m).msb
  | .mi => (a - m).msb
  | .ge => decide (m.toInt ≤ a.toInt)
  | .lt => decide (a.toInt < m.toInt)
  | .gt => decide (m.toInt < a.toInt)
  | .le => decide (a.toInt ≤ m.toInt)

/-- Both digits of a byte are decimal. -/
def isBcd (v : Byte) : Bool := decide (v.toNat / 16 ≤ 9) && decide (v.toNat % 16 ≤ 9)

/-- The number two decimal digits stand for. -/
def bcdValue (v : Byte) : Nat := v.toNat / 16 * 10 + v.toNat % 16

/-- The pieces a register of `EXG` and `TFR` is; writing S arms NMI (40_common_operations R163). -/
def codeParts : RegCode → List Part
  | .d => [.a, .b]
  | .x => [.x]
  | .y => [.y]
  | .u => [.u]
  | .s => [.s, .nmiArmed]
  | .pc => [.pc]
  | .a => [.a]
  | .b => [.b]
  | .cc => ccParts
  | .dp => [.dp]

/-- The value of a register of `EXG` and `TFR`, an 8-bit one extended with zeros. -/
def codeValue (r : RegCode) (s : State) : Word := if isWide r then regRead16 r s else zeroExtend8 (regRead8 r s)

/-- The instructions that may write E, F or I: those that write CC whole, `CWAI`, the software interrupts and `RTI`
(10_state R26, R31, R33, R34). -/
def writesMasks (i : Instr) : Bool :=
  match i with
  | .orcc _ | .andcc _ | .cwai _ | .swi | .swi2 | .swi3 | .rti => true
  | .exg r1 r2 => r1 == .cc || r2 == .cc
  | .tfr _ r2 => r2 == .cc
  | .puls mask | .pulu mask => mask.getLsbD 0
  | _ => false

/-- The instructions that load S with a new value and so arm NMI (60_exceptions R206). -/
def armsNmi (i : Instr) : Bool :=
  match i with
  | .ldsImm _ | .ldsDirect _ | .ldsIdx _ | .ldsExt _ | .leas _ => true
  | .tfr _ r2 => r2 == .s
  | .exg r1 r2 => r1 == .s || r2 == .s
  | .pulu mask => mask.getLsbD 6
  | _ => false

end Sys2Proof.Machine
end

