-- ==== Sys2Proof/Certificates/Slice0/Obligations.lean ====
section
/-! DEFINITION. The statements for the provers, from the numbered rules of spec/. -/

open Sys2Proof Sys2Proof.Machine

/-! ### Encoding -/

/-- Decoding an encoded instruction gives it back, whatever follows it (30_encoding R80 to R107). -/
def Obligations.DecodeOfEncode : Prop :=
  ∀ (i : Instr) (rest : List Byte), i.wf = true → decode (encode i ++ rest) = .ok i rest

/-- What the decoder accepts is a well-formed instruction, and its bytes are exactly the encoding of that instruction: the
decoder drops no bit and adds none (30_encoding R80 to R107). -/
def Obligations.EncodeOfDecode : Prop :=
  ∀ (bytes : List Byte) (i : Instr) (rest : List Byte), decode bytes = .ok i rest →
    i.wf = true ∧ bytes = encode i ++ rest

/-- A postbyte is refused exactly when 30_encoding R97 lists it, and a register pair exactly when R99 calls it illegal. -/
def Obligations.IllegalOperandsRefused : Prop :=
  (∀ (pb : Byte) (rest : List Byte),
    decodeIndexed (pb :: rest) = .bad (.illegalPostbyte pb) ↔ isIllegalPostbyte pb = true) ∧
  ∀ (f : RegCode → RegCode → Instr) (pb : Byte) (rest : List Byte),
    decodeRegPair f (pb :: rest) = .bad .illegalRegisterPair ↔
      ¬ ((pb.toNat / 16 ≤ 5 ∧ pb.toNat % 16 ≤ 5) ∨
        ((8 ≤ pb.toNat / 16 ∧ pb.toNat / 16 ≤ 11) ∧ 8 ≤ pb.toNat % 16 ∧ pb.toNat % 16 ≤ 11))

/-- A few words, each written out from its row of the opcode map and of the postbyte tables. -/
def Obligations.DecodeWords : Prop :=
  decode [0x00, 0x40] = .ok (.negDirect 0x40) [] ∧
  decode [0x4A] = .ok .deca [] ∧
  decode [0x8B, 0x01] = .ok (.addaImm 0x01) [] ∧
  decode [0x83, 0x12, 0x34] = .ok (.subdImm 0x1234) [] ∧
  decode [0xA6, 0x9F, 0x20, 0x10] = .ok (.ldaIdx (.extInd 0x2010)) [] ∧
  decode [0x10, 0xAE, 0x89, 0x12, 0x34] = .ok (.ldyIdx (.off16 .x 0x1234 false)) [] ∧
  decode [0xA6, 0x3F] = .ok (.ldaIdx (.off5 .y 0x1F)) [] ∧
  decode [0x10, 0x27, 0x01, 0x00] = .ok (.lbeq 0x0100) [] ∧
  decode [0x1F, 0x8B] = .ok (.tfr .a .dp) [] ∧
  decode [0x34, 0x16] = .ok (.pshs 0x16) [] ∧
  decode [0x11, 0x3F] = .ok .swi3 [] ∧
  decode [0x8F, 0xFF] = .ok .nop8F [0xFF]

/-! ### The step -/

/-- A step with no interrupt to take, at bytes that decode to an instruction, executes that instruction with PC after its
bytes; if it answers a next state, the step answers that state with the VIA advanced by its ticks and the step
counted. -/
def Obligations.StepRunsInstruction : Prop :=
  ∀ (s : State) (bytes : List Byte) (i : Instr),
    (takeInputs s).resetLine = false →
    (wakeFromSync (takeInputs s)).wait = .running →
    requestedInterrupt (wakeFromSync (takeInputs s)) = none →
    BytesAt (wakeFromSync (takeInputs s)) (wakeFromSync (takeInputs s)).pc bytes →
    decode bytes = .ok i [] →
    let ready := wakeFromSync (takeInputs s)
    let start := ready.putPc (ready.pc + BitVec.ofNat 16 bytes.length)
    step s = finishOutcome (exec i start) ∧
    ∀ t, exec i start = .next t →
      step s = .next
        { t with via := viaAdvance (Config.extraCycles t.steps + 1) t.via, steps := t.steps + 1 }

/-- At a sampling point outside `SYNC` a step takes the request of highest priority that is not masked: NMI, then FIRQ if
F = 0, then IRQ if I = 0; a machine stopped by `CWAI` takes it without stacking. -/
def Obligations.HighestRequestTaken : Prop :=
  ∀ s : State, (takeInputs s).resetLine = false → (wakeFromSync (takeInputs s)).wait ≠ .sync →
    let q := wakeFromSync (takeInputs s)
    let stack := decide (q.wait ≠ .cwai)
    let firq := q.firqLine && !ccF q.cc
    let irq := (q.irqExt || (q.via.ifr &&& q.via.ier != 0)) && !ccI q.cc
    (q.nmiPending = true →
      step s = .next (finishStep (enterInterrupt .nmi stack (q.putWait .running)))) ∧
    (q.nmiPending = false → firq = true →
      step s = .next (finishStep (enterInterrupt .firq stack (q.putWait .running)))) ∧
    (q.nmiPending = false → firq = false → irq = true →
      step s = .next (finishStep (enterInterrupt .irq stack (q.putWait .running))))

/-- A waiting machine stays as it is, but for the VIA and the count of steps: in `CWAI` and `WAI` while no request is
allowed by the masks, in `SYNC` while no line is asserted; a line, masked or not, ends `SYNC`. -/
def Obligations.WaitingChangesNothing : Prop :=
  ∀ s : State, (takeInputs s).resetLine = false →
    let q := takeInputs s
    let irq := q.irqExt || (q.via.ifr &&& q.via.ier != 0)
    (q.wait = .cwai ∨ q.wait = .wai → q.nmiPending = false → (q.firqLine && !ccF q.cc) = false →
      (irq && !ccI q.cc) = false → ∃ t, step s = .next t ∧ SameBut [.via, .steps] q t) ∧
    (q.wait = .sync → q.nmiPending = false → q.firqLine = false → irq = false →
      ∃ t, step s = .next t ∧ SameBut [.via, .steps] q t) ∧
    (q.wait = .sync → (q.nmiPending || q.firqLine || irq) = true →
      (wakeFromSync q).wait = .running ∧ SameBut [.wait] q (wakeFromSync q))

/-- Entry with the entire frame, for every event but FIRQ: where the frame lies in RAM, the twelve bytes hold CC with
E = 1 and the old masks, A, B, DP, X, Y, U and PC from the new S up; then the masks are set and PC comes from the
vector that 60_exceptions R202 lists (`vectorOf`). -/
def Obligations.EntireFrameEntry : Prop :=
  ∀ (k : Interrupt) (s : State), k ≠ .firq → Memory.wf s.mem = true →
    (∀ a ∈ addressesUp 12 (s.s - 12), isRam s.params a = true) →
    isPlain s.params (vectorOf k) = true → isPlain s.params (vectorOf k + 1) = true →
    let t := enterInterrupt k true s
    t.s = s.s - 12 ∧
    Memory.read t.mem t.s.toNat = s.cc ||| 0x80 ∧
    Memory.read t.mem (t.s + 1).toNat = s.a ∧
    Memory.read t.mem (t.s + 2).toNat = s.b ∧
    Memory.read t.mem (t.s + 3).toNat = s.dp ∧
    wordAt t.mem (t.s + 4) = s.x ∧
    wordAt t.mem (t.s + 6) = s.y ∧
    wordAt t.mem (t.s + 8) = s.u ∧
    wordAt t.mem (t.s + 10) = s.pc ∧
    FlagsAre t [(.e, true), (.i, ccI s.cc || (k == .nmi || k == .irq || k == .swi)),
      (.f, ccF s.cc || (k == .nmi || k == .swi))] ∧
    t.pc = wordAt t.mem (vectorOf k) ∧
    t.nmiPending = (s.nmiPending && k != .nmi) ∧
    SameBut [.s, .mem, .flag .e, .flag .i, .flag .f, .pc, .nmiPending] s t ∧
    BytesSameBut (addressesUp 12 t.s) s t

/-- Entry of FIRQ stacks CC with E = 0, then PC above it; entry from `CWAI` stacks nothing and keeps E. Both set the masks
and load PC from the vector that 60_exceptions R202 lists. -/
def Obligations.FastFrameAndCwaiEntry : Prop :=
  (∀ s : State, Memory.wf s.mem = true → (∀ a ∈ addressesUp 3 (s.s - 3), isRam s.params a = true) →
    isPlain s.params (0xFFF6) = true → isPlain s.params (0xFFF7) = true →
    let t := enterInterrupt .firq true s
    t.s = s.s - 3 ∧
    Memory.read t.mem t.s.toNat = s.cc &&& 0x7F ∧
    wordAt t.mem (t.s + 1) = s.pc ∧
    FlagsAre t [(.e, false), (.i, true), (.f, true)] ∧
    t.pc = wordAt t.mem 0xFFF6 ∧
    SameBut [.s, .mem, .flag .e, .flag .i, .flag .f, .pc] s t ∧
    BytesSameBut (addressesUp 3 t.s) s t) ∧
  ∀ (k : Interrupt) (s : State),
    isPlain s.params (vectorOf k) = true → isPlain s.params (vectorOf k + 1) = true →
    let t := enterInterrupt k false s
    FlagsAre t [(.i, ccI s.cc || (k == .nmi || k == .firq || k == .irq || k == .swi)),
      (.f, ccF s.cc || (k == .nmi || k == .firq || k == .swi))] ∧
    t.pc = wordAt s.mem (vectorOf k) ∧
    t.nmiPending = (s.nmiPending && k != .nmi) ∧
    SameBut [.flag .i, .flag .f, .pc, .nmiPending] s t

/-- `RTI` after an entry restores the interrupted program: every register, PC, S and every flag but E, which tells which
frame was pulled. -/
def Obligations.ReturnUndoesEntry : Prop :=
  ∀ (k : Interrupt) (s : State), Memory.wf s.mem = true →
    (∀ a ∈ addressesUp 12 (s.s - 12), isRam s.params a = true) →
    isPlain s.params (vectorOf k) = true → isPlain s.params (vectorOf k + 1) = true →
    ∃ t, exec .rti (enterInterrupt k true s) = .next t ∧
      FlagsAre t [(.e, k != .firq)] ∧
      SameBut [.flag .e, .mem, .nmiPending] s t

/-- A pull undoes a push with the same mask on the same stack, where the bytes below the stack pointer lie in RAM: every
register and flag and PC is back. -/
def Obligations.PullUndoesPush : Prop :=
  ∀ (k : StackReg) (mask : Byte) (s : State), Memory.wf s.mem = true →
    (∀ a ∈ addressesUp 12 (stackPointer k s - 12), isRam s.params a = true) →
    ∃ t u, exec (pushInstr k mask) s = .next t ∧ exec (pullInstr k mask) t = .next u ∧
      u.nmiArmed = (s.nmiArmed || (k == .u && mask.getLsbD 6)) ∧
      SameBut [.mem, .nmiArmed] s u

/-! ### Reset -/

/-- The state right after reset has the values the spec gives. -/
def Obligations.ResetState : Prop :=
  let s := State.reset
  s.pc = wordAt s.mem 0xFFFE ∧ s.dp = 0x00 ∧ ccI s.cc = true ∧ ccF s.cc = true ∧ s.wait = .running ∧
  s.nmiArmed = false ∧ s.nmiPending = false ∧
  s.via.ora = 0 ∧ s.via.orb = 0 ∧ s.via.ira = 0 ∧ s.via.irb = 0 ∧ s.via.ddra = 0 ∧ s.via.ddrb = 0 ∧
  s.via.acr = 0 ∧ s.via.pcr = 0 ∧ s.via.ifr = 0 ∧ s.via.ier = 0 ∧ s.via.t1Armed = false ∧ s.via.t2Armed = false ∧
  s.via.t1Reload = false ∧ s.via.srCount = 0 ∧ s.via.pb7Out = true ∧ s.via.ca2Out = true ∧ s.via.cb2Out = true

/-- While RESET is asserted a step executes nothing, and the VIA stands still (that it does is the model's choice, log 12;
that the release draws its counters is 60_exceptions R261); the release sets what 70_reset_and_hazards R280 and 60_exceptions R261
name, pushes nothing, writes no memory, and keeps the registers they do not name. -/
def Obligations.ResetSequence : Prop :=
  (∀ s : State, (takeInputs s).resetLine = true →
    ∃ t, step s = .next t ∧ SameBut [.steps] (takeInputs s) t) ∧
  ∀ s : State, s.resetLine = true → isPlain s.params 0xFFFE = true → isPlain s.params 0xFFFF = true →
    let t := applyEvent (.reset false) s
    t.pc = wordAt s.mem 0xFFFE ∧ t.dp = 0x00 ∧ FlagsAre t [(.i, true), (.f, true)] ∧ t.wait = .running ∧
    t.nmiArmed = false ∧ t.nmiPending = false ∧ t.resetLine = false ∧
    t.via.ora = 0 ∧ t.via.orb = 0 ∧ t.via.ira = 0 ∧ t.via.irb = 0 ∧ t.via.ddra = 0 ∧ t.via.ddrb = 0 ∧
    t.via.acr = 0 ∧ t.via.pcr = 0 ∧ t.via.ifr = 0 ∧ t.via.ier = 0 ∧ t.via.t1Armed = false ∧ t.via.t2Armed = false ∧
    t.via.t1Reload = false ∧ t.via.srCount = 0 ∧ t.via.pb7Out = true ∧ t.via.ca2Out = true ∧
    t.via.cb2Out = true ∧
    SameBut [.pc, .dp, .flag .i, .flag .f, .wait, .nmiArmed, .nmiPending, .resetLine, .via, .draws] s t

/-! ### The invariant and the rules of the whole machine -/

/-- The invariant holds right after reset. -/
def Obligations.InvAtReset : Prop := Inv State.reset

/-- Every step keeps the invariant. -/
def Obligations.StepKeepsInv : Prop := ∀ s t : State, Inv s → step s = .next t → Inv t

/-- No step changes a byte at an address that is not RAM, nor any parameter of the machine. -/
def Obligations.OnlyRamChanges : Prop :=
  ∀ s t : State, step s = .next t →
    t.params = s.params ∧
    ∀ a : Word, isRam s.params a = false → Memory.read t.mem a.toNat = Memory.read s.mem a.toNat

/-- A step refuses only what the spec refuses, and the refusal names it: one of the twenty unassigned bytes, a sub-opcode
that no row of its page lists, a postbyte of 30_encoding R97, an illegal register pair. -/
def Obligations.StepRefusesOnlyEncodings : Prop :=
  ∀ (s : State) (r : Refusal), step s = .refused r →
    (∃ op ∈ unassignedBytes, r = .unassignedOpcode op) ∨
    (∃ sub : Byte, sub.toNat ∉ assignedPage10 ∧ r = .unassignedSubOpcode 0x10 sub) ∨
    (∃ sub : Byte, sub.toNat ∉ assignedPage11 ∧ r = .unassignedSubOpcode 0x11 sub) ∨
    (∃ pb, isIllegalPostbyte pb = true ∧ r = .illegalPostbyte pb) ∨
    r = .illegalRegisterPair

/-- Every well-formed instruction but the unassigned encodings answers a next state in every state. -/
def Obligations.AssignedInstructionsComplete : Prop :=
  ∀ (i : Instr) (s : State), i.wf = true → isUnassigned i = false → ∃ t, exec i s = .next t

/-- The unassigned encodings answer a refusal that names them, in every state. -/
def Obligations.UnassignedRefused : Prop :=
  ∀ (s : State) (sub : Byte),
    exec .unassigned14 s = .refused (.unassignedOpcode 0x14) ∧
    exec .unassigned15 s = .refused (.unassignedOpcode 0x15) ∧
    exec .unassigned41 s = .refused (.unassignedOpcode 0x41) ∧
    exec .unassigned42 s = .refused (.unassignedOpcode 0x42) ∧
    exec .unassigned4B s = .refused (.unassignedOpcode 0x4B) ∧
    exec .unassigned51 s = .refused (.unassignedOpcode 0x51) ∧
    exec .unassigned55 s = .refused (.unassignedOpcode 0x55) ∧
    exec .unassigned5B s = .refused (.unassignedOpcode 0x5B) ∧
    exec .unassigned5E s = .refused (.unassignedOpcode 0x5E) ∧
    exec .unassigned61 s = .refused (.unassignedOpcode 0x61) ∧
    exec .unassigned62 s = .refused (.unassignedOpcode 0x62) ∧
    exec .unassigned65 s = .refused (.unassignedOpcode 0x65) ∧
    exec .unassigned6B s = .refused (.unassignedOpcode 0x6B) ∧
    exec .unassigned71 s = .refused (.unassignedOpcode 0x71) ∧
    exec .unassigned72 s = .refused (.unassignedOpcode 0x72) ∧
    exec .unassigned75 s = .refused (.unassignedOpcode 0x75) ∧
    exec .unassigned87 s = .refused (.unassignedOpcode 0x87) ∧
    exec .unassignedC7 s = .refused (.unassignedOpcode 0xC7) ∧
    exec .unassignedCD s = .refused (.unassignedOpcode 0xCD) ∧
    exec .unassignedCF s = .refused (.unassignedOpcode 0xCF) ∧
    exec (.unassignedPage10 sub) s = .refused (.unassignedSubOpcode 0x10 sub) ∧
    exec (.unassignedPage11 sub) s = .refused (.unassignedSubOpcode 0x11 sub)

/-- NMI is armed by exactly the instructions that load S with a new value, and nothing an instruction does disarms it. -/
def Obligations.OnlyLoadsOfSArmNmi : Prop :=
  ∀ (i : Instr) (s t : State), exec i s = .next t → t.nmiArmed = (s.nmiArmed || armsNmi i)

/-- E, F and I change only under the instructions that write CC whole, `CWAI`, the software interrupts and `RTI`; the
processor starts to wait only by `SYNC`, `CWAI` and `WAI`. -/
def Obligations.OnlyTheseWriteMasksAndWait : Prop :=
  ∀ (i : Instr) (s t : State), exec i s = .next t →
    (writesMasks i = false → ∀ k : Flag, k = .e ∨ k = .f ∨ k = .i → k.read t = k.read s) ∧
    (t.wait ≠ s.wait → i = .sync ∨ i = .wai ∨ ∃ ii, i = .cwai ii)

/-! ### Memory and addresses -/

/-- Reads of RAM and ROM return the byte held and change nothing; a write of RAM stores the byte and leaves every other
address alone; a write of ROM or of an address nothing answers changes nothing; the sixteen addresses from 0xD000 are
the registers of the VIA, as it stands after the ticks that elapsed before the access, any number of them (20_memory R71,
log 7). -/
def Obligations.BusAccess : Prop :=
  ∀ (a : Word) (v : Byte) (s : State),
    (isPlain s.params a = true → memRead8 a s = (Memory.read s.mem a.toNat, s)) ∧
    (isRam s.params a = true → Memory.wf s.mem = true →
      Memory.read (memWrite8 a v s).mem a.toNat = v ∧ SameBut [.mem] s (memWrite8 a v s) ∧
      BytesSameBut [a] s (memWrite8 a v s)) ∧
    (addressKind s.params a = .rom ∨ addressKind s.params a = .unmapped → memWrite8 a v s = s) ∧
    ∀ r : BitVec 4, ∃ n,
      let device := viaAdvance n s.via
      let access := viaRead s.params.timerClear r device
      memRead8 (0xD00#12 ++ r) s = (access.1, (s.putVia access.2).putDraws (s.draws + 1)) ∧
      memWrite8 (0xD00#12 ++ r) v s = (s.putVia (viaWrite r v device)).putDraws (s.draws + 1)

/-- A word written to RAM reads back as a word, and byte by byte with the high byte first, also where the address wraps;
no other byte changes. -/
def Obligations.WordsAreBigEndian : Prop :=
  ∀ (a v : Word) (s : State), Memory.wf s.mem = true → isRam s.params a = true → isRam s.params (a + 1) = true →
    let t := memWrite16 a v s
    memRead16 a t = (v, t) ∧
    (memRead8 a t).1 = v.extractLsb' 8 8 ∧ (memRead8 (a + 1) t).1 = v.extractLsb' 0 8 ∧
    BytesSameBut [a, a + 1] s t

/-- The effective addresses, as sums modulo 65536 of signed offsets, with the step of the auto modes; an indirect form reads
its pointer at the address of the direct form; which forms are indirect is bit 4 of their postbyte (30_encoding R94,
R96). -/
def Obligations.EffectiveAddresses : Prop :=
  ∀ (s : State) (r : IdxReg) (i : Bool) (n5 : BitVec 5) (n8 : Byte) (n16 : Word),
    let base : Int := (readIndex r s).toNat
    let address (ix : Indexed) : Int := (indexedBase ix s).1.toNat
    let moves (ix : Indexed) (delta : Int) : Prop :=
      ((readIndex r (indexedBase ix s).2).toNat : Int) = (base + delta) % 65536 ∧
      SameBut [idxPart r] s (indexedBase ix s).2
    let moved (ix : Indexed) : Prop := (indexedBase ix s).2 = s
    ((eaDirect n8 s).1.toNat = s.dp.toNat * 256 + n8.toNat ∧ (eaDirect n8 s).2 = s) ∧
    eaExtended n16 s = (n16, s) ∧
    (address (.off5 r n5) = (base + n5.toInt) % 65536 ∧ moved (.off5 r n5)) ∧
    (address (.inc1 r) = base ∧ moves (.inc1 r) 1) ∧
    (address (.inc2 r i) = base ∧ moves (.inc2 r i) 2) ∧
    (address (.dec1 r) = (base - 1) % 65536 ∧ moves (.dec1 r) (-1)) ∧
    (address (.dec2 r i) = (base - 2) % 65536 ∧ moves (.dec2 r i) (-2)) ∧
    (address (.plain r i) = base ∧ moved (.plain r i)) ∧
    (address (.accB r i) = (base + s.b.toInt) % 65536 ∧ moved (.accB r i)) ∧
    (address (.accA r i) = (base + s.a.toInt) % 65536 ∧ moved (.accA r i)) ∧
    (address (.off8 r n8 i) = (base + n8.toInt) % 65536 ∧ moved (.off8 r n8 i)) ∧
    (address (.off16 r n16 i) = (base + n16.toInt) % 65536 ∧ moved (.off16 r n16 i)) ∧
    (address (.accD r i) = (base + (s.a.toNat * 256 + s.b.toNat)) % 65536 ∧ moved (.accD r i)) ∧
    (address (.pcr8 r n8 i) = (s.pc.toNat + n8.toInt) % 65536 ∧ moved (.pcr8 r n8 i)) ∧
    (address (.pcr16 r n16 i) = (s.pc.toNat + n16.toInt) % 65536 ∧ moved (.pcr16 r n16 i)) ∧
    (address (.extInd n16) = n16.toNat ∧ moved (.extInd n16)) ∧
    let indirect (ix : Indexed) : Prop := eaIndexed ix s = memRead16 (indexedBase ix s).1 (indexedBase ix s).2
    let formed (ix : Indexed) : Prop := eaIndexed ix s = indexedBase ix s
    formed (.off5 r n5) ∧ formed (.inc1 r) ∧ formed (.dec1 r) ∧ indirect (.extInd n16) ∧
    ∀ ix ∈ [Indexed.inc2 r i, .dec2 r i, .plain r i, .accB r i, .accA r i, .off8 r n8 i, .off16 r n16 i, .accD r i,
        .pcr8 r n8 i, .pcr16 r n16 i],
      if i then indirect ix else formed ix

/-! ### One operand -/

/-- `NEG`, `NEGA`, `NEGB`. -/
def Obligations.NegateResult : Prop :=
  ∀ (p : Place) (s : State), ∃ (r : Byte) (t : State),
    exec (unaryInstr .neg p) s = .next t ∧
    r.toNat = (256 - (p.operand s).1.toNat) % 256 ∧
    p.Done r [(.n, r.msb), (.z, r == 0), (.v, (p.operand s).1 == 0x80), (.c, (p.operand s).1 != 0)] [.h] s t

/-- `COM`, `COMA`, `COMB`, `CLR`, `CLRA`, `CLRB`. -/
def Obligations.ComplementAndClearResult : Prop :=
  ∀ (p : Place) (s : State),
    (∃ (r : Byte) (t : State), exec (unaryInstr .com p) s = .next t ∧
      r.toNat = 255 - (p.operand s).1.toNat ∧
      p.Done r [(.n, r.msb), (.z, r == 0), (.v, false), (.c, true)] [] s t) ∧
    ∃ t, exec (unaryInstr .clr p) s = .next t ∧
      p.Done 0 [(.n, false), (.z, true), (.v, false), (.c, false)] [] s t

/-- `LSR` and `ASR`, with their accumulator forms: the logical shift brings in 0, the arithmetic one keeps the sign. -/
def Obligations.ShiftRightResult : Prop :=
  ∀ (p : Place) (s : State),
    (∃ (r : Byte) (t : State), exec (unaryInstr .lsr p) s = .next t ∧
      r.toNat = (p.operand s).1.toNat / 2 ∧
      p.Done r [(.n, false), (.z, r == 0), (.c, (p.operand s).1.getLsbD 0)] [] s t) ∧
    ∃ (r : Byte) (t : State), exec (unaryInstr .asr p) s = .next t ∧
      r.toInt = (p.operand s).1.toInt / 2 ∧
      p.Done r [(.n, r.msb), (.z, r == 0), (.c, (p.operand s).1.getLsbD 0)] [.h] s t

/-- `ASL`, `ASLA`, `ASLB`. -/
def Obligations.ShiftLeftResult : Prop :=
  ∀ (p : Place) (s : State), ∃ (r : Byte) (t : State),
    exec (unaryInstr .asl p) s = .next t ∧
    r.toNat = (p.operand s).1.toNat * 2 % 256 ∧
    p.Done r [(.n, r.msb), (.z, r == 0), (.v, (p.operand s).1.getLsbD 7 != (p.operand s).1.getLsbD 6),
      (.c, (p.operand s).1.getLsbD 7)] [.h] s t ∧
    Flag.v.read t = (Flag.n.read t != Flag.c.read t)

/-- `ROR` and `ROL`, with their accumulator forms: rotations of the nine bits of the operand and C. -/
def Obligations.RotateResult : Prop :=
  ∀ (p : Place) (s : State),
    (∃ (r : Byte) (t : State), exec (unaryInstr .ror p) s = .next t ∧
      r.toNat = (p.operand s).1.toNat / 2 + 128 * (ccC s.cc).toNat ∧
      p.Done r [(.n, r.msb), (.z, r == 0), (.c, (p.operand s).1.getLsbD 0)] [] s t) ∧
    ∃ (r : Byte) (t : State), exec (unaryInstr .rol p) s = .next t ∧
      r.toNat = (p.operand s).1.toNat * 2 % 256 + (ccC s.cc).toNat ∧
      p.Done r [(.n, r.msb), (.z, r == 0), (.v, (p.operand s).1.getLsbD 7 != (p.operand s).1.getLsbD 6),
        (.c, (p.operand s).1.getLsbD 7)] [] s t

/-- `INC` and `DEC`, with their accumulator forms: C is not a carry. -/
def Obligations.IncrementDecrementResult : Prop :=
  ∀ (p : Place) (s : State),
    (∃ (r : Byte) (t : State), exec (unaryInstr .inc p) s = .next t ∧
      r.toNat = ((p.operand s).1.toNat + 1) % 256 ∧
      p.Done r [(.n, r.msb), (.z, r == 0), (.v, (p.operand s).1 == 0x7F)] [] s t) ∧
    ∃ (r : Byte) (t : State), exec (unaryInstr .dec p) s = .next t ∧
      r.toNat = ((p.operand s).1.toNat + 255) % 256 ∧
      p.Done r [(.n, r.msb), (.z, r == 0), (.v, (p.operand s).1 == 0x80)] [] s t

/-- `TST`, `TSTA`, `TSTB`: the operand is read and nothing is written back. -/
def Obligations.TestResult : Prop :=
  ∀ (p : Place) (s : State), ∃ t, exec (unaryInstr .tst p) s = .next t ∧
    FlagsAre t (valueFlags (p.operand s).1) ∧
    SameBut nzvParts (p.operand s).2 t ∧
    SameBut (nzvParts ++ (match p with | .acc _ => [] | .mem m => m.touches)) s t

/-! ### Two operands, 8 bits -/

/-- `ADDA`, `ADDB`, `ADCA`, `ADCB`, `ABA`. -/
def Obligations.AddResult : Prop :=
  ∀ (r : Acc) (src : Source8) (s : State),
    (∃ t, exec (binaryInstr .add r src) s = .next t ∧
      Sum8 r (src.read s).1 false src.touches s (src.read s).2 t) ∧
    (∃ t, exec (binaryInstr .adc r src) s = .next t ∧
      Sum8 r (src.read s).1 (ccC s.cc) src.touches s (src.read s).2 t) ∧
    ∃ t, exec .aba s = .next t ∧ Sum8 .a s.b false [] s s t

/-- `SUBA`, `SUBB`, `SBCA`, `SBCB`, `CMPA`, `CMPB`: the compare writes no accumulator. -/
def Obligations.SubtractResult : Prop :=
  ∀ (r : Acc) (src : Source8) (s : State),
    let a := readAcc r s
    let m := (src.read s).1
    (∃ t, exec (binaryInstr .sub r src) s = .next t ∧ IsDifference a m false (readAcc r t) ∧
      FlagsAre t (differenceFlags a m false (readAcc r t)) ∧
      Writes (r.part :: differenceParts) src.touches s (src.read s).2 t) ∧
    (∃ t, exec (binaryInstr .sbc r src) s = .next t ∧ IsDifference a m (ccC s.cc) (readAcc r t) ∧
      FlagsAre t (differenceFlags a m (ccC s.cc) (readAcc r t)) ∧
      Writes (r.part :: differenceParts) src.touches s (src.read s).2 t) ∧
    ∃ (d : Byte) (t : State), exec (binaryInstr .cmp r src) s = .next t ∧ IsDifference a m false d ∧
      FlagsAre t (differenceFlags a m false d) ∧
      Writes differenceParts src.touches s (src.read s).2 t

/-- `ANDA`, `ANDB`, `ORA`, `ORB`, `EORA`, `EORB`, `BITA`, `BITB`: bit by bit, V cleared, C and H unchanged; `BIT` writes no
accumulator. -/
def Obligations.LogicResult : Prop :=
  ∀ (r : Acc) (src : Source8) (s : State),
    let a := readAcc r s
    let m := (src.read s).1
    (∃ t, exec (binaryInstr .and r src) s = .next t ∧
      (∀ n, n < 8 → (readAcc r t).getLsbD n = (a.getLsbD n && m.getLsbD n)) ∧
      FlagsAre t (valueFlags (readAcc r t)) ∧ Writes (r.part :: nzvParts) src.touches s (src.read s).2 t) ∧
    (∃ t, exec (binaryInstr .or r src) s = .next t ∧
      (∀ n, n < 8 → (readAcc r t).getLsbD n = (a.getLsbD n || m.getLsbD n)) ∧
      FlagsAre t (valueFlags (readAcc r t)) ∧ Writes (r.part :: nzvParts) src.touches s (src.read s).2 t) ∧
    (∃ t, exec (binaryInstr .eor r src) s = .next t ∧
      (∀ n, n < 8 → (readAcc r t).getLsbD n = (a.getLsbD n != m.getLsbD n)) ∧
      FlagsAre t (valueFlags (readAcc r t)) ∧ Writes (r.part :: nzvParts) src.touches s (src.read s).2 t) ∧
    ∃ t, exec (binaryInstr .bit r src) s = .next t ∧
      FlagsAre t (valueFlags (a &&& m)) ∧ Writes nzvParts src.touches s (src.read s).2 t

/-- `LDA`, `LDB`, `STA`, `STB`. -/
def Obligations.LoadStore8Result : Prop :=
  (∀ (r : Acc) (src : Source8) (s : State), ∃ t, exec (load8Instr r src) s = .next t ∧
    readAcc r t = (src.read s).1 ∧ FlagsAre t (valueFlags (src.read s).1) ∧
    Writes (r.part :: nzvParts) src.touches s (src.read s).2 t) ∧
  ∀ (r : Acc) (m : MemMode) (s : State), ∃ t, exec (store8Instr r m) s = .next t ∧
    FlagsAre t (valueFlags (readAcc r s)) ∧
    Writes nzvParts (.mem :: m.touches) s (memWrite8 (m.address s).1 (readAcc r s) (m.address s).2) t ∧
    BytesSameBut [(m.address s).1] s t

/-! ### 16 bits -/

/-- `ADDD`. -/
def Obligations.AddWordResult : Prop :=
  ∀ (src : Source16) (s : State),
    let a := s.d
    let m := (src.read s).1
    ∃ t, exec (adddInstr src) s = .next t ∧
      t.d.toNat = (a.toNat + m.toNat) % 65536 ∧
      FlagsAre t [(.n, t.d.msb), (.z, t.d == 0), (.v, a.msb == m.msb && t.d.msb != a.msb),
        (.c, decide (65535 < a.toNat + m.toNat))] ∧
      Writes ([.a, .b] ++ flagParts [.n, .z, .v, .c]) src.touches s (src.read s).2 t

/-- `SUBD` and the 16-bit compares, which write no register; the register is read after an auto mode has stepped it. -/
def Obligations.SubtractWordResult : Prop :=
  ∀ (r : Reg16) (src : Source16) (s : State),
    let m := (src.read s).1
    (∃ t, exec (subdInstr src) s = .next t ∧
      (t.d.toNat : Int) = ((s.d.toNat : Int) - m.toNat) % 65536 ∧
      FlagsAre t (differenceFlags16 s.d m t.d) ∧
      Writes ([.a, .b] ++ flagParts [.n, .z, .v, .c]) src.touches s (src.read s).2 t) ∧
    let a := readReg16 r (src.read s).2
    ∃ (d : Word) (t : State), exec (cmp16Instr r src) s = .next t ∧
      (d.toNat : Int) = ((a.toNat : Int) - m.toNat) % 65536 ∧
      FlagsAre t (differenceFlags16 a m d) ∧
      Writes (flagParts [.n, .z, .v, .c]) src.touches s (src.read s).2 t

/-- The 16-bit loads and stores: a load of S arms NMI; a store reads its register after an auto mode has stepped it. -/
def Obligations.LoadStore16Result : Prop :=
  (∀ (r : Reg16) (src : Source16) (s : State), ∃ t, exec (load16Instr r src) s = .next t ∧
    readReg16 r t = (src.read s).1 ∧ FlagsAre t (valueFlags (src.read s).1) ∧
    t.nmiArmed = (s.nmiArmed || r == .s) ∧
    Writes (r.parts ++ nzvParts) src.touches s (src.read s).2 t) ∧
  ∀ (r : Reg16) (m : MemMode) (s : State), ∃ t, exec (store16Instr r m) s = .next t ∧
    let e := m.address s
    FlagsAre t (valueFlags (readReg16 r e.2)) ∧
    Writes nzvParts (.mem :: m.touches) s (memWrite16 e.1 (readReg16 r e.2) e.2) t ∧
    BytesSameBut [e.1, e.1 + 1] s t

/-- `MUL`, for both settings of MUL_FLAGS. -/
def Obligations.MultiplyResult : Prop :=
  ∀ s : State, ∃ t, exec .mul s = .next t ∧
    t.d.toNat = s.a.toNat * s.b.toNat ∧
    (s.params.mulFlags = .source →
      FlagsAre t [(.n, t.d.getLsbD 15), (.z, t.d == 0), (.v, false), (.c, t.d.getLsbD 15)]) ∧
    (s.params.mulFlags = .mc6809 →
      FlagsAre t [(.n, ccN s.cc), (.z, t.d == 0), (.v, ccV s.cc), (.c, t.d.getLsbD 7)]) ∧
    SameBut ([.a, .b] ++ flagParts [.n, .z, .v, .c]) s t

/-- `DAA`: the correction 0x06 and 0x60; V is undefined and H is not written. -/
def Obligations.DecimalAdjustResult : Prop :=
  ∀ s : State,
    let low := s.a.toNat % 16
    let high := s.a.toNat / 16
    let cf := (if 9 < low ∨ ccH s.cc = true then 0x06 else 0) +
      (if 9 < high ∨ ccC s.cc = true ∨ (8 < high ∧ 9 < low) then 0x60 else 0)
    ∃ t, exec .daa s = .next t ∧
      t.a.toNat = (s.a.toNat + cf) % 256 ∧
      FlagsAre t [(.n, t.a.msb), (.z, t.a == 0), (.c, ccC s.cc || decide (255 < s.a.toNat + cf))] ∧
      SameBut (.a :: .draws :: flagParts [.n, .z, .v, .c]) s t

/-- `DAA` after an addition of two packed decimal bytes, with or without a carry in, gives the decimal sum, and C the
hundred. -/
def Obligations.DecimalAddition : Prop :=
  ∀ (s : State) (ii : Byte), isBcd s.a = true → isBcd ii = true →
    let sum := bcdValue s.a + bcdValue ii + (ccC s.cc).toNat
    ∃ t u, exec (.adcaImm ii) s = .next t ∧ exec .daa t = .next u ∧
      isBcd u.a = true ∧ bcdValue u.a = sum % 100 ∧ ccC u.cc = decide (100 ≤ sum)

/-- `SEX` and `ABX`: D takes the signed number in B, X gains the unsigned number in B. -/
def Obligations.ExtendResult : Prop :=
  ∀ s : State,
    (∃ t, exec .sex s = .next t ∧ t.d.toInt = s.b.toInt ∧ t.b = s.b ∧
      FlagsAre t [(.n, s.b.msb), (.z, s.b == 0)] ∧ SameBut (.a :: flagParts [.n, .z]) s t) ∧
    ∃ t, exec .abx s = .next t ∧ t.x.toNat = (s.x.toNat + s.b.toNat) % 65536 ∧ SameBut [.x] s t

/-- `LEAX`, `LEAY`, `LEAU`, `LEAS`: the register takes the address itself; X and Y set Z, S arms NMI. -/
def Obligations.LoadAddressResult : Prop :=
  ∀ (r : IdxReg) (ix : Indexed) (s : State), ∃ t, exec (leaInstr r ix) s = .next t ∧
    let e := eaIndexed ix s
    let written := idxPart r :: (match r with | .x | .y => [.flag .z] | .u => [] | .s => [.nmiArmed])
    readIndex r t = e.1 ∧
    (r = .x ∨ r = .y → ccZ t.cc = (e.1 == 0)) ∧
    t.nmiArmed = (s.nmiArmed || r == .s) ∧
    Writes written (indexedSteps ix ++ [.via, .draws]) s e.2 t

/-! ### Control transfer -/

/-- The short and the long branches: taken by the table of conditions, to the signed displacement from the next
instruction; no flag and no other register changes. -/
def Obligations.BranchResult : Prop :=
  ∀ (c : Cond) (rr : Byte) (disp : Word) (s : State),
    let taken := branchTaken c (ccN s.cc) (ccZ s.cc) (ccV s.cc) (ccC s.cc)
    (∃ t, exec (branchInstr c rr) s = .next t ∧
      (t.pc.toNat : Int) = (if taken then ((s.pc.toNat : Int) + rr.toInt) % 65536 else s.pc.toNat) ∧
      SameBut [.pc] s t) ∧
    ∃ t, exec (longBranchInstr c disp) s = .next t ∧
      (t.pc.toNat : Int) = (if taken then ((s.pc.toNat : Int) + disp.toInt) % 65536 else s.pc.toNat) ∧
      SameBut [.pc] s t

/-- A branch after a compare decides the order of the numbers compared: unsigned for the higher and lower conditions,
signed for the greater and less ones; for the 8-bit and the 16-bit compares, each with the short and the long branch. -/
def Obligations.BranchAfterCompare : Prop :=
  (∀ (r : Acc) (src : Source8) (s : State) (c : Cond) (rr : Byte) (disp : Word),
    let taken := orderHolds c (readAcc r s) (src.read s).1
    ∃ t u w, exec (binaryInstr .cmp r src) s = .next t ∧
      exec (branchInstr c rr) t = .next u ∧ (u.pc = if taken then s.pc + rr.signExtend 16 else s.pc) ∧
      exec (longBranchInstr c disp) t = .next w ∧ w.pc = if taken then s.pc + disp else s.pc) ∧
  ∀ (r : Reg16) (src : Source16) (s : State) (c : Cond) (rr : Byte) (disp : Word),
    let taken := orderHolds c (readReg16 r (src.read s).2) (src.read s).1
    ∃ t u w, exec (cmp16Instr r src) s = .next t ∧
      exec (branchInstr c rr) t = .next u ∧ (u.pc = if taken then s.pc + rr.signExtend 16 else s.pc) ∧
      exec (longBranchInstr c disp) t = .next w ∧ w.pc = if taken then s.pc + disp else s.pc

/-- `JMP`, `JSR`, `BSR`, `LBSR`, `RTS`: a call pushes the address of the next instruction on S after its address is formed,
and a return pulls it. -/
def Obligations.JumpAndCallResult : Prop :=
  ∀ (m : MemMode) (rr : Byte) (disp : Word) (s : State),
    let e := m.address s
    (∃ t, exec (jmpInstr m) s = .next t ∧ t.pc = e.1 ∧ Writes [.pc] m.touches s e.2 t) ∧
    (∃ t, exec (jsrInstr m) s = .next t ∧ t.pc = e.1 ∧ t.s = e.2.s - 2 ∧
      Writes [.pc, .s] (.mem :: m.touches) s (storeDown (pushedWord s.pc) e.2.s e.2) t ∧
      BytesSameBut (addressesUp 2 t.s) s t) ∧
    (∃ t, exec (.bsr rr) s = .next t ∧ (t.pc.toNat : Int) = ((s.pc.toNat : Int) + rr.toInt) % 65536 ∧
      t.s = s.s - 2 ∧ Writes [.pc, .s] [.mem, .via, .draws] s (storeDown (pushedWord s.pc) s.s s) t ∧
      BytesSameBut (addressesUp 2 t.s) s t) ∧
    (∃ t, exec (.lbsr disp) s = .next t ∧ (t.pc.toNat : Int) = ((s.pc.toNat : Int) + disp.toInt) % 65536 ∧
      t.s = s.s - 2 ∧ Writes [.pc, .s] [.mem, .via, .draws] s (storeDown (pushedWord s.pc) s.s s) t ∧
      BytesSameBut (addressesUp 2 t.s) s t) ∧
    ∃ t, exec .rts s = .next t ∧ t.pc = wordOf (readUp 2 s.s s).1 0 ∧ t.s = s.s + 2 ∧
      Writes [.pc, .s] [.via, .draws] s (readUp 2 s.s s).2 t

/-! ### Stacks and register transfers -/

/-- `PSHS`, `PSHU`: the registers of the mask go below the stack pointer in the fixed order, PC first and CC last. -/
def Obligations.PushResult : Prop :=
  ∀ (k : StackReg) (mask : Byte) (s : State),
    let bytes := pushedBytes k mask s
    ∃ t, exec (pushInstr k mask) s = .next t ∧
      stackPointer k t = stackPointer k s - BitVec.ofNat 16 bytes.length ∧
      Writes [k.part] [.mem, .via, .draws] s (storeDown bytes (stackPointer k s) s) t ∧
      BytesSameBut (addressesUp bytes.length (stackPointer k t)) s t

/-- `PULS`, `PULU`: each register of the mask takes its bytes in the reverse order, CC first and PC last; the others keep
their values. -/
def Obligations.PullResult : Prop :=
  ∀ (k : StackReg) (mask : Byte) (s : State),
    let size := maskOffset mask 8
    let l := (readUp size (stackPointer k s) s).1
    let read8 (bit : Nat) (old : Byte) : Byte := if mask.getLsbD bit then byteOf l (maskOffset mask bit) else old
    let read16 (bit : Nat) (old : Word) : Word := if mask.getLsbD bit then wordOf l (maskOffset mask bit) else old
    ∃ t, exec (pullInstr k mask) s = .next t ∧
      stackPointer k t = stackPointer k s + BitVec.ofNat 16 size ∧
      t.cc = read8 0 s.cc ∧ t.a = read8 1 s.a ∧ t.b = read8 2 s.b ∧ t.dp = read8 3 s.dp ∧
      t.x = read16 4 s.x ∧ t.y = read16 5 s.y ∧
      stackPointer (otherStack k) t = read16 6 (stackPointer (otherStack k) s) ∧
      t.pc = read16 7 s.pc ∧
      t.nmiArmed = (s.nmiArmed || (k == .u && mask.getLsbD 6)) ∧
      Writes (ccParts ++ [.a, .b, .dp, .x, .y, .u, .s, .pc, .nmiArmed]) [.via, .draws] s
        (readUp size (stackPointer k s) s).2 t

/-- `EXG` and `TFR` on registers of one width: the exchange swaps, the transfer copies, a write of S arms NMI, nothing else
changes; registers of two widths are refused. -/
def Obligations.TransferResult : Prop :=
  ∀ (r1 r2 : RegCode) (s : State),
    (isWide r1 = isWide r2 →
      (∃ t, exec (.exg r1 r2) s = .next t ∧
        codeValue r1 t = codeValue r2 s ∧ codeValue r2 t = codeValue r1 s ∧
        t.nmiArmed = (s.nmiArmed || (r1 == .s || r2 == .s)) ∧ SameBut (codeParts r1 ++ codeParts r2) s t) ∧
      ∃ t, exec (.tfr r1 r2) s = .next t ∧ codeValue r2 t = codeValue r1 s ∧
        t.nmiArmed = (s.nmiArmed || r2 == .s) ∧ SameBut (codeParts r2) s t) ∧
    (isWide r1 ≠ isWide r2 →
      exec (.exg r1 r2) s = .refused .illegalRegisterPair ∧ exec (.tfr r1 r2) s = .refused .illegalRegisterPair)

/-! ### CC, waits, software interrupts -/

/-- The places of the flags in CC (10_state R26), and `ORCC`, `ANDCC`, `SEV`. -/
def Obligations.ConditionCodeResult : Prop :=
  ∀ (ii : Byte) (s : State),
    (Flag.e.read s = s.cc.getLsbD 7 ∧ Flag.f.read s = s.cc.getLsbD 6 ∧ Flag.h.read s = s.cc.getLsbD 5 ∧
      Flag.i.read s = s.cc.getLsbD 4 ∧ Flag.n.read s = s.cc.getLsbD 3 ∧ Flag.z.read s = s.cc.getLsbD 2 ∧
      Flag.v.read s = s.cc.getLsbD 1 ∧ Flag.c.read s = s.cc.getLsbD 0) ∧
    (∃ t, exec (.orcc ii) s = .next t ∧
      (∀ n, n < 8 → t.cc.getLsbD n = (s.cc.getLsbD n || ii.getLsbD n)) ∧ SameBut ccParts s t) ∧
    (∃ t, exec (.andcc ii) s = .next t ∧
      (∀ n, n < 8 → t.cc.getLsbD n = (s.cc.getLsbD n && ii.getLsbD n)) ∧ SameBut ccParts s t) ∧
    ∃ t, exec .sev s = .next t ∧ (∀ n, n < 8 → t.cc.getLsbD n = (s.cc.getLsbD n || n == 1)) ∧ SameBut [.flag .v] s t

/-- `NOP` and the ten bytes treated as `NOP` change nothing: PC is already after the byte. -/
def Obligations.NopResult : Prop := ∀ (s : State), ∀ i ∈ nopInstrs, exec i s = .next s ∧ (encode i).length = 1

/-- `SYNC` and `WAI` start the wait and push nothing; `CWAI` masks CC, sets E, pushes the entire frame once and waits. -/
def Obligations.WaitResult : Prop :=
  ∀ (ii : Byte) (s : State),
    (∃ t, exec .sync s = .next t ∧ t.wait = .sync ∧ SameBut [.wait] s t) ∧
    (∃ t, exec .wai s = .next t ∧ t.wait = .wai ∧ SameBut [.wait] s t) ∧
    ∃ t, exec (.cwai ii) s = .next t ∧ t.wait = .cwai ∧ t.cc = (s.cc &&& ii) ||| 0x80 ∧ t.s = s.s - 12 ∧
      Writes (ccParts ++ [.wait, .s]) [.mem, .via, .draws] s
        (storeDown (entireFrame ((s.cc &&& ii) ||| 0x80) s) s.s s) t ∧
      BytesSameBut (addressesUp 12 t.s) s t

/-- `SWI`, `SWI2`, `SWI3`: the entire frame with E = 1, then the masks for `SWI` alone, then PC from the vector. -/
def Obligations.SoftwareInterruptResult : Prop :=
  ∀ (k : Interrupt) (i : Instr) (s : State), swiInstr k = some i →
    let pushed := storeDown (entireFrame (s.cc ||| 0x80) s) s.s s
    let vector := memRead16 (vectorOf k) pushed
    ∃ t, exec i s = .next t ∧ t.pc = vector.1 ∧ t.s = s.s - 12 ∧
      FlagsAre t [(.e, true), (.i, ccI s.cc || k == .swi), (.f, ccF s.cc || k == .swi)] ∧
      Writes [.pc, .s, .flag .e, .flag .i, .flag .f] [.mem, .via, .draws] s vector.2 t ∧
      BytesSameBut (addressesUp 12 t.s) s t

/-- `RTI`: CC is pulled; with E = 1 in the pulled CC the rest of the entire frame, with E = 0 only PC. -/
def Obligations.ReturnResult : Prop :=
  ∀ s : State,
    let cc := (memRead8 s.s s).1
    let size := if ccE cc then 12 else 3
    let l := (readUp size s.s s).1
    ∃ t, exec .rti s = .next t ∧ t.cc = cc ∧ t.s = s.s + BitVec.ofNat 16 size ∧
      t.pc = wordOf l (size - 2) ∧
      (ccE cc = true → t.a = byteOf l 1 ∧ t.b = byteOf l 2 ∧ t.dp = byteOf l 3 ∧ t.x = wordOf l 4 ∧
        t.y = wordOf l 6 ∧ t.u = wordOf l 8 ∧
        Writes (ccParts ++ [.a, .b, .dp, .x, .y, .u, .s, .pc]) [.via, .draws] s (readUp size s.s s).2 t) ∧
      (ccE cc = false → Writes (ccParts ++ [.s, .pc]) [.via, .draws] s (readUp size s.s s).2 t)

/-! ### The VIA -/

/-- The interrupt flag and enable registers: bit 7 of a read of IFR is synthesised, a write of IFR clears the flags written
as 1, a read of IER has bit 7 set, and bit 7 of a write of IER says whether the 1 bits enable or disable. -/
def Obligations.InterruptRegisters : Prop :=
  ∀ (c : TimerClear) (d : Byte) (v : Via),
    (viaRead c 13 v).2 = v ∧ (viaRead c 14 v).2 = v ∧
    (viaRead c 13 v).1.getLsbD 7 = (List.range 7).any (fun n => v.ifr.getLsbD n && v.ier.getLsbD n) ∧
    (viaRead c 14 v).1.getLsbD 7 = true ∧
    ∀ n, n < 7 →
      (viaRead c 13 v).1.getLsbD n = v.ifr.getLsbD n ∧
      (viaRead c 14 v).1.getLsbD n = v.ier.getLsbD n ∧
      (viaWrite 13 d v).ifr.getLsbD n = (v.ifr.getLsbD n && !d.getLsbD n) ∧
      (viaWrite 14 d v).ier.getLsbD n = (if d.getLsbD n then d.getLsbD 7 else v.ier.getLsbD n) ∧
      viaWrite 13 d v = { v with ifr := (viaWrite 13 d v).ifr } ∧
      viaWrite 14 d v = { v with ier := (viaWrite 14 d v).ier }

/-- The port registers 0 to 3 and 15. Reads bit by bit with latching off: port A returns the output register where a pin is
an output and the level the outside drives elsewhere; port B likewise, bit 7 as an input only while timer 1 does not drive
it. A read or write of register 1 clears IFR[1], and IFR[0] unless CA2 is independent, and lowers CA2 in modes 100 and 101;
of register 0, IFR[4], and IFR[3] unless CB2 is independent, and a write lowers CB2 likewise. Nothing else changes. -/
def Obligations.PortReads : Prop :=
  ∀ (c : TimerClear) (d : Byte) (v : Via),
    let readA := viaRead c 1 v
    let readB := viaRead c 0 v
    let independentA := !v.pcr.getLsbD 3 && v.pcr.getLsbD 1
    let independentB := !v.pcr.getLsbD 7 && v.pcr.getLsbD 5
    (∀ n, n < 8 →
      (v.acr.getLsbD 0 = false → readA.1.getLsbD n = if v.ddra.getLsbD n then v.ora.getLsbD n else v.pa.getLsbD n) ∧
      (v.acr.getLsbD 1 = false → (n < 7 ∨ v.acr.getLsbD 7 = false ∨ v.ddrb.getLsbD 7 = true) →
        readB.1.getLsbD n = if v.ddrb.getLsbD n then v.orb.getLsbD n else v.pb.getLsbD n)) ∧
    (∀ n, n < 7 →
      readA.2.ifr.getLsbD n = (v.ifr.getLsbD n && n != 1 && (n != 0 || independentA)) ∧
      readB.2.ifr.getLsbD n = (v.ifr.getLsbD n && n != 4 && (n != 3 || independentB))) ∧
    readA.2.ca2Out = (v.ca2Out && !(v.pcr.getLsbD 3 && !v.pcr.getLsbD 2)) ∧
    readA.2 = { v with ifr := readA.2.ifr, ca2Out := readA.2.ca2Out, ca2Pulse := readA.2.ca2Pulse } ∧
    readB.2 = { v with ifr := readB.2.ifr } ∧
    (v.acr.getLsbD 0 = false → viaRead c 15 v = (readA.1, v)) ∧
    viaRead c 2 v = (v.ddrb, v) ∧ viaRead c 3 v = (v.ddra, v) ∧
    viaWrite 1 d v = { readA.2 with ora := d } ∧
    (viaWrite 0 d v).cb2Out = (v.cb2Out && !(v.pcr.getLsbD 7 && !v.pcr.getLsbD 6)) ∧
    viaWrite 0 d v =
      { v with
        orb := d, ifr := readB.2.ifr, cb2Out := (viaWrite 0 d v).cb2Out, cb2Pulse := (viaWrite 0 d v).cb2Pulse } ∧
    viaWrite 2 d v = { v with ddrb := d } ∧ viaWrite 3 d v = { v with ddra := d } ∧ viaWrite 15 d v = { v with ora := d }

/-- The timers' registers 4 to 9 and ACR, with the flags their accesses clear for each VIA_TFLAG_CLEAR_READ; and the time-out:
a timer started with count N sets its flag on tick N + 1, and not before; the one-shot timer 1 does not set it again until
it is started again. Timer 2 counts the ticks when it is in timed mode and does not clock the shift register. -/
def Obligations.TimersTimeOut : Prop :=
  (∀ (c : TimerClear) (d : Byte) (v : Via),
    let low := v.t1l.extractLsb' 0 8
    viaRead c 4 v = (v.t1c.extractLsb' 0 8, { v with ifr := if c = .highOnly then v.ifr else v.ifr &&& 0x3F }) ∧
    viaRead c 5 v = (v.t1c.extractLsb' 8 8, { v with ifr := if c = .lowOnly then v.ifr else v.ifr &&& 0x3F }) ∧
    viaRead c 6 v = (low, v) ∧ viaRead c 7 v = (v.t1l.extractLsb' 8 8, v) ∧
    viaRead c 8 v = (v.t2c.extractLsb' 0 8, { v with ifr := if c = .highOnly then v.ifr else v.ifr &&& 0x5F }) ∧
    viaRead c 9 v = (v.t2c.extractLsb' 8 8, { v with ifr := if c = .lowOnly then v.ifr else v.ifr &&& 0x5F }) ∧
    viaWrite 4 d v = { v with t1l := v.t1l.extractLsb' 8 8 ++ d } ∧ viaWrite 6 d v = viaWrite 4 d v ∧
    viaWrite 5 d v =
      { v with
        t1l := d ++ low, t1c := d ++ low, ifr := v.ifr &&& 0x3F, t1Armed := true, t1Reload := false
        pb7Out := v.pb7Out && !v.acr.getLsbD 7 } ∧
    viaWrite 7 d v = { v with t1l := d ++ low, ifr := v.ifr &&& 0x3F } ∧
    viaWrite 8 d v = { v with t2ll := d } ∧
    viaWrite 9 d v = { v with t2c := d ++ v.t2ll, ifr := v.ifr &&& 0x5F, t2Armed := true } ∧
    viaRead c 11 v = (v.acr, v) ∧ viaWrite 11 d v = { v with acr := d }) ∧
  ∀ (d : Byte) (v : Via) (n : Nat),
    (let w := viaWrite 5 d v
     let count := d.toNat * 256 + (loByte v.t1l).toNat
     (n ≤ count → viaFlagSet .timer1 (viaAdvance n w) = false ∧ (viaAdvance n w).t1c.toNat = count - n) ∧
     viaFlagSet .timer1 (viaAdvance (count + 1) w) = true ∧
     (v.acr.getLsbD 6 = false →
       viaFlagSet .timer1 (viaAdvance n (viaWrite 13 0x40 (viaAdvance (count + 1) w))) = false)) ∧
    (v.acr.getLsbD 5 = false → timer2Shifts v = false →
      let w := viaWrite 9 d v
      let count := d.toNat * 256 + v.t2ll.toNat
      (n ≤ count → viaFlagSet .timer2 (viaAdvance n w) = false ∧ (viaAdvance n w).t2c.toNat = count - n) ∧
      viaFlagSet .timer2 (viaAdvance (count + 1) w) = true ∧
      viaFlagSet .timer2 (viaAdvance n (viaWrite 13 0x20 (viaAdvance (count + 1) w))) = false)

/-- An access to SR clears IFR[2] and starts a byte in the modes that shift (60_exceptions R244); a byte shifted out under the
system clock is back in SR after eight shifts, and the flag is then set (R258). That a shift falls on every second tick is
the model's choice (log 17), as is that a shift out drives CB2 whatever PCR says (log 27). -/
def Obligations.ShiftOutRotates : Prop :=
  (∀ (c : TimerClear) (d : Byte) (v : Via),
    let access := viaRead c 10 v
    access.1 = v.sr ∧ access.2.srCount = (if v.acr.extractLsb' 2 3 = 0 then v.srCount else 8) ∧
    access.2 =
      { v with ifr := v.ifr &&& 0x7B, srCount := access.2.srCount, srPhase := access.2.srPhase } ∧
    viaWrite 10 d v = { access.2 with sr := d }) ∧
  ∀ (d : Byte) (v : Via), shiftMode v = 6 →
    let w := viaAdvance 16 (viaWrite 10 d v)
    w.sr = d ∧ w.srCount = 0 ∧ viaFlagSet .shift w = true ∧ w.cb2Out = d.getLsbD 0 ∧
    ∀ n, n < 16 → viaFlagSet .shift (viaAdvance n (viaWrite 10 d v)) = false

/-- An edge on a control line sets its flag exactly when it has the polarity PCR selects, CA2 and CB2 only while they are
inputs, and changes no other flag, but that a rise of CB1 may end an externally clocked shift and set IFR[2]; no edge clears
a flag. The active edge of CA1 ends a handshake on CA2. PCR reads as written, and a manual mode sets its line at once. A
pulse on CA2 ends at the first tick after its access (an inference from 60_exceptions R260, log 18); without a pulse no tick
changes CA2. -/
def Obligations.ControlLineEdges : Prop :=
  ∀ (c : TimerClear) (level : Bool) (d : Byte) (v : Via),
    let activeA := v.ca1 != level && level == v.pcr.getLsbD 0
    let activeB := v.cb1 != level && level == v.pcr.getLsbD 4
    (∀ n, n < 7 →
      (viaSetCa1 level v).ifr.getLsbD n = (v.ifr.getLsbD n || n == 1 && activeA) ∧
      (n ≠ 2 → (viaSetCb1 level v).ifr.getLsbD n = (v.ifr.getLsbD n || n == 4 && activeB)) ∧
      (v.ifr.getLsbD n = true → (viaSetCb1 level v).ifr.getLsbD n = true) ∧
      (viaSetCa2 level v).ifr.getLsbD n =
        (v.ifr.getLsbD n || n == 0 && !v.pcr.getLsbD 3 && v.ca2 != level && level == v.pcr.getLsbD 2) ∧
      (viaSetCb2 level v).ifr.getLsbD n =
        (v.ifr.getLsbD n || n == 3 && !v.pcr.getLsbD 7 && v.cb2 != level && level == v.pcr.getLsbD 6)) ∧
    (viaSetCa1 level v).ca2Out =
      (v.ca2Out || activeA && v.pcr.getLsbD 3 && !v.pcr.getLsbD 2 && !v.pcr.getLsbD 1) ∧
    viaRead c 12 v = (v.pcr, v) ∧
    viaWrite 12 d v =
      { v with
        pcr := d
        ca2Out := if d.getLsbD 3 && d.getLsbD 2 then d.getLsbD 1 else v.ca2Out
        cb2Out := if d.getLsbD 7 && d.getLsbD 6 then d.getLsbD 5 else v.cb2Out
        ca2Pulse := (viaWrite 12 d v).ca2Pulse
        cb2Pulse := (viaWrite 12 d v).cb2Pulse } ∧
    (v.pcr.extractLsb' 1 3 = 5 →
      (viaRead c 1 v).2.ca2Out = false ∧ (viaTick (viaRead c 1 v).2).ca2Out = true) ∧
    (v.ca2Pulse = false → (viaTick v).ca2Out = v.ca2Out)

/-- An edge on NMI is remembered while NMI is armed and dropped otherwise; the levels of FIRQ and of the host's part of IRQ
are what the host last set; nothing else changes. -/
def Obligations.LinesFollowTheHost : Prop :=
  ∀ (level : Bool) (s : State),
    ((applyEvent .nmiEdge s).nmiPending = (s.nmiPending || s.nmiArmed) ∧
      SameBut [.nmiPending] s (applyEvent .nmiEdge s)) ∧
    ((applyEvent (.firq level) s).firqLine = level ∧ SameBut [.firqLine] s (applyEvent (.firq level) s)) ∧
    ((applyEvent (.irqExt level) s).irqExt = level ∧ SameBut [.irqExt] s (applyEvent (.irqExt level) s))
end

