-- ==== Sys2Proof/Laws/State.lean ====
section
/-! SUPPORT. One lemma for each field and each update of one field, so that no proof unfolds an update; then the same for the
pair D, the load of S and the free values. -/

namespace Sys2Proof.Machine

/-! ### `putA` -/

@[simp] theorem putA_a (v : Byte) (s : State) : (s.putA v).a = v := rfl
@[simp] theorem putA_b (v : Byte) (s : State) : (s.putA v).b = s.b := rfl
@[simp] theorem putA_x (v : Byte) (s : State) : (s.putA v).x = s.x := rfl
@[simp] theorem putA_y (v : Byte) (s : State) : (s.putA v).y = s.y := rfl
@[simp] theorem putA_u (v : Byte) (s : State) : (s.putA v).u = s.u := rfl
@[simp] theorem putA_s (v : Byte) (s : State) : (s.putA v).s = s.s := rfl
@[simp] theorem putA_pc (v : Byte) (s : State) : (s.putA v).pc = s.pc := rfl
@[simp] theorem putA_dp (v : Byte) (s : State) : (s.putA v).dp = s.dp := rfl
@[simp] theorem putA_cc (v : Byte) (s : State) : (s.putA v).cc = s.cc := rfl
@[simp] theorem putA_wait (v : Byte) (s : State) : (s.putA v).wait = s.wait := rfl
@[simp] theorem putA_nmiArmed (v : Byte) (s : State) : (s.putA v).nmiArmed = s.nmiArmed := rfl
@[simp] theorem putA_nmiPending (v : Byte) (s : State) : (s.putA v).nmiPending = s.nmiPending := rfl
@[simp] theorem putA_firqLine (v : Byte) (s : State) : (s.putA v).firqLine = s.firqLine := rfl
@[simp] theorem putA_irqExt (v : Byte) (s : State) : (s.putA v).irqExt = s.irqExt := rfl
@[simp] theorem putA_resetLine (v : Byte) (s : State) : (s.putA v).resetLine = s.resetLine := rfl
@[simp] theorem putA_mem (v : Byte) (s : State) : (s.putA v).mem = s.mem := rfl
@[simp] theorem putA_via (v : Byte) (s : State) : (s.putA v).via = s.via := rfl
@[simp] theorem putA_params (v : Byte) (s : State) : (s.putA v).params = s.params := rfl
@[simp] theorem putA_inputs (v : Byte) (s : State) : (s.putA v).inputs = s.inputs := rfl
@[simp] theorem putA_draws (v : Byte) (s : State) : (s.putA v).draws = s.draws := rfl
@[simp] theorem putA_steps (v : Byte) (s : State) : (s.putA v).steps = s.steps := rfl

/-! ### `putB` -/

@[simp] theorem putB_a (v : Byte) (s : State) : (s.putB v).a = s.a := rfl
@[simp] theorem putB_b (v : Byte) (s : State) : (s.putB v).b = v := rfl
@[simp] theorem putB_x (v : Byte) (s : State) : (s.putB v).x = s.x := rfl
@[simp] theorem putB_y (v : Byte) (s : State) : (s.putB v).y = s.y := rfl
@[simp] theorem putB_u (v : Byte) (s : State) : (s.putB v).u = s.u := rfl
@[simp] theorem putB_s (v : Byte) (s : State) : (s.putB v).s = s.s := rfl
@[simp] theorem putB_pc (v : Byte) (s : State) : (s.putB v).pc = s.pc := rfl
@[simp] theorem putB_dp (v : Byte) (s : State) : (s.putB v).dp = s.dp := rfl
@[simp] theorem putB_cc (v : Byte) (s : State) : (s.putB v).cc = s.cc := rfl
@[simp] theorem putB_wait (v : Byte) (s : State) : (s.putB v).wait = s.wait := rfl
@[simp] theorem putB_nmiArmed (v : Byte) (s : State) : (s.putB v).nmiArmed = s.nmiArmed := rfl
@[simp] theorem putB_nmiPending (v : Byte) (s : State) : (s.putB v).nmiPending = s.nmiPending := rfl
@[simp] theorem putB_firqLine (v : Byte) (s : State) : (s.putB v).firqLine = s.firqLine := rfl
@[simp] theorem putB_irqExt (v : Byte) (s : State) : (s.putB v).irqExt = s.irqExt := rfl
@[simp] theorem putB_resetLine (v : Byte) (s : State) : (s.putB v).resetLine = s.resetLine := rfl
@[simp] theorem putB_mem (v : Byte) (s : State) : (s.putB v).mem = s.mem := rfl
@[simp] theorem putB_via (v : Byte) (s : State) : (s.putB v).via = s.via := rfl
@[simp] theorem putB_params (v : Byte) (s : State) : (s.putB v).params = s.params := rfl
@[simp] theorem putB_inputs (v : Byte) (s : State) : (s.putB v).inputs = s.inputs := rfl
@[simp] theorem putB_draws (v : Byte) (s : State) : (s.putB v).draws = s.draws := rfl
@[simp] theorem putB_steps (v : Byte) (s : State) : (s.putB v).steps = s.steps := rfl

/-! ### `putX` -/

@[simp] theorem putX_a (v : Word) (s : State) : (s.putX v).a = s.a := rfl
@[simp] theorem putX_b (v : Word) (s : State) : (s.putX v).b = s.b := rfl
@[simp] theorem putX_x (v : Word) (s : State) : (s.putX v).x = v := rfl
@[simp] theorem putX_y (v : Word) (s : State) : (s.putX v).y = s.y := rfl
@[simp] theorem putX_u (v : Word) (s : State) : (s.putX v).u = s.u := rfl
@[simp] theorem putX_s (v : Word) (s : State) : (s.putX v).s = s.s := rfl
@[simp] theorem putX_pc (v : Word) (s : State) : (s.putX v).pc = s.pc := rfl
@[simp] theorem putX_dp (v : Word) (s : State) : (s.putX v).dp = s.dp := rfl
@[simp] theorem putX_cc (v : Word) (s : State) : (s.putX v).cc = s.cc := rfl
@[simp] theorem putX_wait (v : Word) (s : State) : (s.putX v).wait = s.wait := rfl
@[simp] theorem putX_nmiArmed (v : Word) (s : State) : (s.putX v).nmiArmed = s.nmiArmed := rfl
@[simp] theorem putX_nmiPending (v : Word) (s : State) : (s.putX v).nmiPending = s.nmiPending := rfl
@[simp] theorem putX_firqLine (v : Word) (s : State) : (s.putX v).firqLine = s.firqLine := rfl
@[simp] theorem putX_irqExt (v : Word) (s : State) : (s.putX v).irqExt = s.irqExt := rfl
@[simp] theorem putX_resetLine (v : Word) (s : State) : (s.putX v).resetLine = s.resetLine := rfl
@[simp] theorem putX_mem (v : Word) (s : State) : (s.putX v).mem = s.mem := rfl
@[simp] theorem putX_via (v : Word) (s : State) : (s.putX v).via = s.via := rfl
@[simp] theorem putX_params (v : Word) (s : State) : (s.putX v).params = s.params := rfl
@[simp] theorem putX_inputs (v : Word) (s : State) : (s.putX v).inputs = s.inputs := rfl
@[simp] theorem putX_draws (v : Word) (s : State) : (s.putX v).draws = s.draws := rfl
@[simp] theorem putX_steps (v : Word) (s : State) : (s.putX v).steps = s.steps := rfl

/-! ### `putY` -/

@[simp] theorem putY_a (v : Word) (s : State) : (s.putY v).a = s.a := rfl
@[simp] theorem putY_b (v : Word) (s : State) : (s.putY v).b = s.b := rfl
@[simp] theorem putY_x (v : Word) (s : State) : (s.putY v).x = s.x := rfl
@[simp] theorem putY_y (v : Word) (s : State) : (s.putY v).y = v := rfl
@[simp] theorem putY_u (v : Word) (s : State) : (s.putY v).u = s.u := rfl
@[simp] theorem putY_s (v : Word) (s : State) : (s.putY v).s = s.s := rfl
@[simp] theorem putY_pc (v : Word) (s : State) : (s.putY v).pc = s.pc := rfl
@[simp] theorem putY_dp (v : Word) (s : State) : (s.putY v).dp = s.dp := rfl
@[simp] theorem putY_cc (v : Word) (s : State) : (s.putY v).cc = s.cc := rfl
@[simp] theorem putY_wait (v : Word) (s : State) : (s.putY v).wait = s.wait := rfl
@[simp] theorem putY_nmiArmed (v : Word) (s : State) : (s.putY v).nmiArmed = s.nmiArmed := rfl
@[simp] theorem putY_nmiPending (v : Word) (s : State) : (s.putY v).nmiPending = s.nmiPending := rfl
@[simp] theorem putY_firqLine (v : Word) (s : State) : (s.putY v).firqLine = s.firqLine := rfl
@[simp] theorem putY_irqExt (v : Word) (s : State) : (s.putY v).irqExt = s.irqExt := rfl
@[simp] theorem putY_resetLine (v : Word) (s : State) : (s.putY v).resetLine = s.resetLine := rfl
@[simp] theorem putY_mem (v : Word) (s : State) : (s.putY v).mem = s.mem := rfl
@[simp] theorem putY_via (v : Word) (s : State) : (s.putY v).via = s.via := rfl
@[simp] theorem putY_params (v : Word) (s : State) : (s.putY v).params = s.params := rfl
@[simp] theorem putY_inputs (v : Word) (s : State) : (s.putY v).inputs = s.inputs := rfl
@[simp] theorem putY_draws (v : Word) (s : State) : (s.putY v).draws = s.draws := rfl
@[simp] theorem putY_steps (v : Word) (s : State) : (s.putY v).steps = s.steps := rfl

/-! ### `putU` -/

@[simp] theorem putU_a (v : Word) (s : State) : (s.putU v).a = s.a := rfl
@[simp] theorem putU_b (v : Word) (s : State) : (s.putU v).b = s.b := rfl
@[simp] theorem putU_x (v : Word) (s : State) : (s.putU v).x = s.x := rfl
@[simp] theorem putU_y (v : Word) (s : State) : (s.putU v).y = s.y := rfl
@[simp] theorem putU_u (v : Word) (s : State) : (s.putU v).u = v := rfl
@[simp] theorem putU_s (v : Word) (s : State) : (s.putU v).s = s.s := rfl
@[simp] theorem putU_pc (v : Word) (s : State) : (s.putU v).pc = s.pc := rfl
@[simp] theorem putU_dp (v : Word) (s : State) : (s.putU v).dp = s.dp := rfl
@[simp] theorem putU_cc (v : Word) (s : State) : (s.putU v).cc = s.cc := rfl
@[simp] theorem putU_wait (v : Word) (s : State) : (s.putU v).wait = s.wait := rfl
@[simp] theorem putU_nmiArmed (v : Word) (s : State) : (s.putU v).nmiArmed = s.nmiArmed := rfl
@[simp] theorem putU_nmiPending (v : Word) (s : State) : (s.putU v).nmiPending = s.nmiPending := rfl
@[simp] theorem putU_firqLine (v : Word) (s : State) : (s.putU v).firqLine = s.firqLine := rfl
@[simp] theorem putU_irqExt (v : Word) (s : State) : (s.putU v).irqExt = s.irqExt := rfl
@[simp] theorem putU_resetLine (v : Word) (s : State) : (s.putU v).resetLine = s.resetLine := rfl
@[simp] theorem putU_mem (v : Word) (s : State) : (s.putU v).mem = s.mem := rfl
@[simp] theorem putU_via (v : Word) (s : State) : (s.putU v).via = s.via := rfl
@[simp] theorem putU_params (v : Word) (s : State) : (s.putU v).params = s.params := rfl
@[simp] theorem putU_inputs (v : Word) (s : State) : (s.putU v).inputs = s.inputs := rfl
@[simp] theorem putU_draws (v : Word) (s : State) : (s.putU v).draws = s.draws := rfl
@[simp] theorem putU_steps (v : Word) (s : State) : (s.putU v).steps = s.steps := rfl

/-! ### `putS` -/

@[simp] theorem putS_a (v : Word) (s : State) : (s.putS v).a = s.a := rfl
@[simp] theorem putS_b (v : Word) (s : State) : (s.putS v).b = s.b := rfl
@[simp] theorem putS_x (v : Word) (s : State) : (s.putS v).x = s.x := rfl
@[simp] theorem putS_y (v : Word) (s : State) : (s.putS v).y = s.y := rfl
@[simp] theorem putS_u (v : Word) (s : State) : (s.putS v).u = s.u := rfl
@[simp] theorem putS_s (v : Word) (s : State) : (s.putS v).s = v := rfl
@[simp] theorem putS_pc (v : Word) (s : State) : (s.putS v).pc = s.pc := rfl
@[simp] theorem putS_dp (v : Word) (s : State) : (s.putS v).dp = s.dp := rfl
@[simp] theorem putS_cc (v : Word) (s : State) : (s.putS v).cc = s.cc := rfl
@[simp] theorem putS_wait (v : Word) (s : State) : (s.putS v).wait = s.wait := rfl
@[simp] theorem putS_nmiArmed (v : Word) (s : State) : (s.putS v).nmiArmed = s.nmiArmed := rfl
@[simp] theorem putS_nmiPending (v : Word) (s : State) : (s.putS v).nmiPending = s.nmiPending := rfl
@[simp] theorem putS_firqLine (v : Word) (s : State) : (s.putS v).firqLine = s.firqLine := rfl
@[simp] theorem putS_irqExt (v : Word) (s : State) : (s.putS v).irqExt = s.irqExt := rfl
@[simp] theorem putS_resetLine (v : Word) (s : State) : (s.putS v).resetLine = s.resetLine := rfl
@[simp] theorem putS_mem (v : Word) (s : State) : (s.putS v).mem = s.mem := rfl
@[simp] theorem putS_via (v : Word) (s : State) : (s.putS v).via = s.via := rfl
@[simp] theorem putS_params (v : Word) (s : State) : (s.putS v).params = s.params := rfl
@[simp] theorem putS_inputs (v : Word) (s : State) : (s.putS v).inputs = s.inputs := rfl
@[simp] theorem putS_draws (v : Word) (s : State) : (s.putS v).draws = s.draws := rfl
@[simp] theorem putS_steps (v : Word) (s : State) : (s.putS v).steps = s.steps := rfl

/-! ### `putPc` -/

@[simp] theorem putPc_a (v : Word) (s : State) : (s.putPc v).a = s.a := rfl
@[simp] theorem putPc_b (v : Word) (s : State) : (s.putPc v).b = s.b := rfl
@[simp] theorem putPc_x (v : Word) (s : State) : (s.putPc v).x = s.x := rfl
@[simp] theorem putPc_y (v : Word) (s : State) : (s.putPc v).y = s.y := rfl
@[simp] theorem putPc_u (v : Word) (s : State) : (s.putPc v).u = s.u := rfl
@[simp] theorem putPc_s (v : Word) (s : State) : (s.putPc v).s = s.s := rfl
@[simp] theorem putPc_pc (v : Word) (s : State) : (s.putPc v).pc = v := rfl
@[simp] theorem putPc_dp (v : Word) (s : State) : (s.putPc v).dp = s.dp := rfl
@[simp] theorem putPc_cc (v : Word) (s : State) : (s.putPc v).cc = s.cc := rfl
@[simp] theorem putPc_wait (v : Word) (s : State) : (s.putPc v).wait = s.wait := rfl
@[simp] theorem putPc_nmiArmed (v : Word) (s : State) : (s.putPc v).nmiArmed = s.nmiArmed := rfl
@[simp] theorem putPc_nmiPending (v : Word) (s : State) : (s.putPc v).nmiPending = s.nmiPending := rfl
@[simp] theorem putPc_firqLine (v : Word) (s : State) : (s.putPc v).firqLine = s.firqLine := rfl
@[simp] theorem putPc_irqExt (v : Word) (s : State) : (s.putPc v).irqExt = s.irqExt := rfl
@[simp] theorem putPc_resetLine (v : Word) (s : State) : (s.putPc v).resetLine = s.resetLine := rfl
@[simp] theorem putPc_mem (v : Word) (s : State) : (s.putPc v).mem = s.mem := rfl
@[simp] theorem putPc_via (v : Word) (s : State) : (s.putPc v).via = s.via := rfl
@[simp] theorem putPc_params (v : Word) (s : State) : (s.putPc v).params = s.params := rfl
@[simp] theorem putPc_inputs (v : Word) (s : State) : (s.putPc v).inputs = s.inputs := rfl
@[simp] theorem putPc_draws (v : Word) (s : State) : (s.putPc v).draws = s.draws := rfl
@[simp] theorem putPc_steps (v : Word) (s : State) : (s.putPc v).steps = s.steps := rfl

/-! ### `putDp` -/

@[simp] theorem putDp_a (v : Byte) (s : State) : (s.putDp v).a = s.a := rfl
@[simp] theorem putDp_b (v : Byte) (s : State) : (s.putDp v).b = s.b := rfl
@[simp] theorem putDp_x (v : Byte) (s : State) : (s.putDp v).x = s.x := rfl
@[simp] theorem putDp_y (v : Byte) (s : State) : (s.putDp v).y = s.y := rfl
@[simp] theorem putDp_u (v : Byte) (s : State) : (s.putDp v).u = s.u := rfl
@[simp] theorem putDp_s (v : Byte) (s : State) : (s.putDp v).s = s.s := rfl
@[simp] theorem putDp_pc (v : Byte) (s : State) : (s.putDp v).pc = s.pc := rfl
@[simp] theorem putDp_dp (v : Byte) (s : State) : (s.putDp v).dp = v := rfl
@[simp] theorem putDp_cc (v : Byte) (s : State) : (s.putDp v).cc = s.cc := rfl
@[simp] theorem putDp_wait (v : Byte) (s : State) : (s.putDp v).wait = s.wait := rfl
@[simp] theorem putDp_nmiArmed (v : Byte) (s : State) : (s.putDp v).nmiArmed = s.nmiArmed := rfl
@[simp] theorem putDp_nmiPending (v : Byte) (s : State) : (s.putDp v).nmiPending = s.nmiPending := rfl
@[simp] theorem putDp_firqLine (v : Byte) (s : State) : (s.putDp v).firqLine = s.firqLine := rfl
@[simp] theorem putDp_irqExt (v : Byte) (s : State) : (s.putDp v).irqExt = s.irqExt := rfl
@[simp] theorem putDp_resetLine (v : Byte) (s : State) : (s.putDp v).resetLine = s.resetLine := rfl
@[simp] theorem putDp_mem (v : Byte) (s : State) : (s.putDp v).mem = s.mem := rfl
@[simp] theorem putDp_via (v : Byte) (s : State) : (s.putDp v).via = s.via := rfl
@[simp] theorem putDp_params (v : Byte) (s : State) : (s.putDp v).params = s.params := rfl
@[simp] theorem putDp_inputs (v : Byte) (s : State) : (s.putDp v).inputs = s.inputs := rfl
@[simp] theorem putDp_draws (v : Byte) (s : State) : (s.putDp v).draws = s.draws := rfl
@[simp] theorem putDp_steps (v : Byte) (s : State) : (s.putDp v).steps = s.steps := rfl

/-! ### `putCc` -/

@[simp] theorem putCc_a (v : Byte) (s : State) : (s.putCc v).a = s.a := rfl
@[simp] theorem putCc_b (v : Byte) (s : State) : (s.putCc v).b = s.b := rfl
@[simp] theorem putCc_x (v : Byte) (s : State) : (s.putCc v).x = s.x := rfl
@[simp] theorem putCc_y (v : Byte) (s : State) : (s.putCc v).y = s.y := rfl
@[simp] theorem putCc_u (v : Byte) (s : State) : (s.putCc v).u = s.u := rfl
@[simp] theorem putCc_s (v : Byte) (s : State) : (s.putCc v).s = s.s := rfl
@[simp] theorem putCc_pc (v : Byte) (s : State) : (s.putCc v).pc = s.pc := rfl
@[simp] theorem putCc_dp (v : Byte) (s : State) : (s.putCc v).dp = s.dp := rfl
@[simp] theorem putCc_cc (v : Byte) (s : State) : (s.putCc v).cc = v := rfl
@[simp] theorem putCc_wait (v : Byte) (s : State) : (s.putCc v).wait = s.wait := rfl
@[simp] theorem putCc_nmiArmed (v : Byte) (s : State) : (s.putCc v).nmiArmed = s.nmiArmed := rfl
@[simp] theorem putCc_nmiPending (v : Byte) (s : State) : (s.putCc v).nmiPending = s.nmiPending := rfl
@[simp] theorem putCc_firqLine (v : Byte) (s : State) : (s.putCc v).firqLine = s.firqLine := rfl
@[simp] theorem putCc_irqExt (v : Byte) (s : State) : (s.putCc v).irqExt = s.irqExt := rfl
@[simp] theorem putCc_resetLine (v : Byte) (s : State) : (s.putCc v).resetLine = s.resetLine := rfl
@[simp] theorem putCc_mem (v : Byte) (s : State) : (s.putCc v).mem = s.mem := rfl
@[simp] theorem putCc_via (v : Byte) (s : State) : (s.putCc v).via = s.via := rfl
@[simp] theorem putCc_params (v : Byte) (s : State) : (s.putCc v).params = s.params := rfl
@[simp] theorem putCc_inputs (v : Byte) (s : State) : (s.putCc v).inputs = s.inputs := rfl
@[simp] theorem putCc_draws (v : Byte) (s : State) : (s.putCc v).draws = s.draws := rfl
@[simp] theorem putCc_steps (v : Byte) (s : State) : (s.putCc v).steps = s.steps := rfl

/-! ### `putWait` -/

@[simp] theorem putWait_a (v : Wait) (s : State) : (s.putWait v).a = s.a := rfl
@[simp] theorem putWait_b (v : Wait) (s : State) : (s.putWait v).b = s.b := rfl
@[simp] theorem putWait_x (v : Wait) (s : State) : (s.putWait v).x = s.x := rfl
@[simp] theorem putWait_y (v : Wait) (s : State) : (s.putWait v).y = s.y := rfl
@[simp] theorem putWait_u (v : Wait) (s : State) : (s.putWait v).u = s.u := rfl
@[simp] theorem putWait_s (v : Wait) (s : State) : (s.putWait v).s = s.s := rfl
@[simp] theorem putWait_pc (v : Wait) (s : State) : (s.putWait v).pc = s.pc := rfl
@[simp] theorem putWait_dp (v : Wait) (s : State) : (s.putWait v).dp = s.dp := rfl
@[simp] theorem putWait_cc (v : Wait) (s : State) : (s.putWait v).cc = s.cc := rfl
@[simp] theorem putWait_wait (v : Wait) (s : State) : (s.putWait v).wait = v := rfl
@[simp] theorem putWait_nmiArmed (v : Wait) (s : State) : (s.putWait v).nmiArmed = s.nmiArmed := rfl
@[simp] theorem putWait_nmiPending (v : Wait) (s : State) : (s.putWait v).nmiPending = s.nmiPending := rfl
@[simp] theorem putWait_firqLine (v : Wait) (s : State) : (s.putWait v).firqLine = s.firqLine := rfl
@[simp] theorem putWait_irqExt (v : Wait) (s : State) : (s.putWait v).irqExt = s.irqExt := rfl
@[simp] theorem putWait_resetLine (v : Wait) (s : State) : (s.putWait v).resetLine = s.resetLine := rfl
@[simp] theorem putWait_mem (v : Wait) (s : State) : (s.putWait v).mem = s.mem := rfl
@[simp] theorem putWait_via (v : Wait) (s : State) : (s.putWait v).via = s.via := rfl
@[simp] theorem putWait_params (v : Wait) (s : State) : (s.putWait v).params = s.params := rfl
@[simp] theorem putWait_inputs (v : Wait) (s : State) : (s.putWait v).inputs = s.inputs := rfl
@[simp] theorem putWait_draws (v : Wait) (s : State) : (s.putWait v).draws = s.draws := rfl
@[simp] theorem putWait_steps (v : Wait) (s : State) : (s.putWait v).steps = s.steps := rfl

/-! ### `putNmiArmed` -/

@[simp] theorem putNmiArmed_a (v : Bool) (s : State) : (s.putNmiArmed v).a = s.a := rfl
@[simp] theorem putNmiArmed_b (v : Bool) (s : State) : (s.putNmiArmed v).b = s.b := rfl
@[simp] theorem putNmiArmed_x (v : Bool) (s : State) : (s.putNmiArmed v).x = s.x := rfl
@[simp] theorem putNmiArmed_y (v : Bool) (s : State) : (s.putNmiArmed v).y = s.y := rfl
@[simp] theorem putNmiArmed_u (v : Bool) (s : State) : (s.putNmiArmed v).u = s.u := rfl
@[simp] theorem putNmiArmed_s (v : Bool) (s : State) : (s.putNmiArmed v).s = s.s := rfl
@[simp] theorem putNmiArmed_pc (v : Bool) (s : State) : (s.putNmiArmed v).pc = s.pc := rfl
@[simp] theorem putNmiArmed_dp (v : Bool) (s : State) : (s.putNmiArmed v).dp = s.dp := rfl
@[simp] theorem putNmiArmed_cc (v : Bool) (s : State) : (s.putNmiArmed v).cc = s.cc := rfl
@[simp] theorem putNmiArmed_wait (v : Bool) (s : State) : (s.putNmiArmed v).wait = s.wait := rfl
@[simp] theorem putNmiArmed_nmiArmed (v : Bool) (s : State) : (s.putNmiArmed v).nmiArmed = v := rfl
@[simp] theorem putNmiArmed_nmiPending (v : Bool) (s : State) : (s.putNmiArmed v).nmiPending = s.nmiPending := rfl
@[simp] theorem putNmiArmed_firqLine (v : Bool) (s : State) : (s.putNmiArmed v).firqLine = s.firqLine := rfl
@[simp] theorem putNmiArmed_irqExt (v : Bool) (s : State) : (s.putNmiArmed v).irqExt = s.irqExt := rfl
@[simp] theorem putNmiArmed_resetLine (v : Bool) (s : State) : (s.putNmiArmed v).resetLine = s.resetLine := rfl
@[simp] theorem putNmiArmed_mem (v : Bool) (s : State) : (s.putNmiArmed v).mem = s.mem := rfl
@[simp] theorem putNmiArmed_via (v : Bool) (s : State) : (s.putNmiArmed v).via = s.via := rfl
@[simp] theorem putNmiArmed_params (v : Bool) (s : State) : (s.putNmiArmed v).params = s.params := rfl
@[simp] theorem putNmiArmed_inputs (v : Bool) (s : State) : (s.putNmiArmed v).inputs = s.inputs := rfl
@[simp] theorem putNmiArmed_draws (v : Bool) (s : State) : (s.putNmiArmed v).draws = s.draws := rfl
@[simp] theorem putNmiArmed_steps (v : Bool) (s : State) : (s.putNmiArmed v).steps = s.steps := rfl

/-! ### `putNmiPending` -/

@[simp] theorem putNmiPending_a (v : Bool) (s : State) : (s.putNmiPending v).a = s.a := rfl
@[simp] theorem putNmiPending_b (v : Bool) (s : State) : (s.putNmiPending v).b = s.b := rfl
@[simp] theorem putNmiPending_x (v : Bool) (s : State) : (s.putNmiPending v).x = s.x := rfl
@[simp] theorem putNmiPending_y (v : Bool) (s : State) : (s.putNmiPending v).y = s.y := rfl
@[simp] theorem putNmiPending_u (v : Bool) (s : State) : (s.putNmiPending v).u = s.u := rfl
@[simp] theorem putNmiPending_s (v : Bool) (s : State) : (s.putNmiPending v).s = s.s := rfl
@[simp] theorem putNmiPending_pc (v : Bool) (s : State) : (s.putNmiPending v).pc = s.pc := rfl
@[simp] theorem putNmiPending_dp (v : Bool) (s : State) : (s.putNmiPending v).dp = s.dp := rfl
@[simp] theorem putNmiPending_cc (v : Bool) (s : State) : (s.putNmiPending v).cc = s.cc := rfl
@[simp] theorem putNmiPending_wait (v : Bool) (s : State) : (s.putNmiPending v).wait = s.wait := rfl
@[simp] theorem putNmiPending_nmiArmed (v : Bool) (s : State) : (s.putNmiPending v).nmiArmed = s.nmiArmed := rfl
@[simp] theorem putNmiPending_nmiPending (v : Bool) (s : State) : (s.putNmiPending v).nmiPending = v := rfl
@[simp] theorem putNmiPending_firqLine (v : Bool) (s : State) : (s.putNmiPending v).firqLine = s.firqLine := rfl
@[simp] theorem putNmiPending_irqExt (v : Bool) (s : State) : (s.putNmiPending v).irqExt = s.irqExt := rfl
@[simp] theorem putNmiPending_resetLine (v : Bool) (s : State) : (s.putNmiPending v).resetLine = s.resetLine := rfl
@[simp] theorem putNmiPending_mem (v : Bool) (s : State) : (s.putNmiPending v).mem = s.mem := rfl
@[simp] theorem putNmiPending_via (v : Bool) (s : State) : (s.putNmiPending v).via = s.via := rfl
@[simp] theorem putNmiPending_params (v : Bool) (s : State) : (s.putNmiPending v).params = s.params := rfl
@[simp] theorem putNmiPending_inputs (v : Bool) (s : State) : (s.putNmiPending v).inputs = s.inputs := rfl
@[simp] theorem putNmiPending_draws (v : Bool) (s : State) : (s.putNmiPending v).draws = s.draws := rfl
@[simp] theorem putNmiPending_steps (v : Bool) (s : State) : (s.putNmiPending v).steps = s.steps := rfl

/-! ### `putFirqLine` -/

@[simp] theorem putFirqLine_a (v : Bool) (s : State) : (s.putFirqLine v).a = s.a := rfl
@[simp] theorem putFirqLine_b (v : Bool) (s : State) : (s.putFirqLine v).b = s.b := rfl
@[simp] theorem putFirqLine_x (v : Bool) (s : State) : (s.putFirqLine v).x = s.x := rfl
@[simp] theorem putFirqLine_y (v : Bool) (s : State) : (s.putFirqLine v).y = s.y := rfl
@[simp] theorem putFirqLine_u (v : Bool) (s : State) : (s.putFirqLine v).u = s.u := rfl
@[simp] theorem putFirqLine_s (v : Bool) (s : State) : (s.putFirqLine v).s = s.s := rfl
@[simp] theorem putFirqLine_pc (v : Bool) (s : State) : (s.putFirqLine v).pc = s.pc := rfl
@[simp] theorem putFirqLine_dp (v : Bool) (s : State) : (s.putFirqLine v).dp = s.dp := rfl
@[simp] theorem putFirqLine_cc (v : Bool) (s : State) : (s.putFirqLine v).cc = s.cc := rfl
@[simp] theorem putFirqLine_wait (v : Bool) (s : State) : (s.putFirqLine v).wait = s.wait := rfl
@[simp] theorem putFirqLine_nmiArmed (v : Bool) (s : State) : (s.putFirqLine v).nmiArmed = s.nmiArmed := rfl
@[simp] theorem putFirqLine_nmiPending (v : Bool) (s : State) : (s.putFirqLine v).nmiPending = s.nmiPending := rfl
@[simp] theorem putFirqLine_firqLine (v : Bool) (s : State) : (s.putFirqLine v).firqLine = v := rfl
@[simp] theorem putFirqLine_irqExt (v : Bool) (s : State) : (s.putFirqLine v).irqExt = s.irqExt := rfl
@[simp] theorem putFirqLine_resetLine (v : Bool) (s : State) : (s.putFirqLine v).resetLine = s.resetLine := rfl
@[simp] theorem putFirqLine_mem (v : Bool) (s : State) : (s.putFirqLine v).mem = s.mem := rfl
@[simp] theorem putFirqLine_via (v : Bool) (s : State) : (s.putFirqLine v).via = s.via := rfl
@[simp] theorem putFirqLine_params (v : Bool) (s : State) : (s.putFirqLine v).params = s.params := rfl
@[simp] theorem putFirqLine_inputs (v : Bool) (s : State) : (s.putFirqLine v).inputs = s.inputs := rfl
@[simp] theorem putFirqLine_draws (v : Bool) (s : State) : (s.putFirqLine v).draws = s.draws := rfl
@[simp] theorem putFirqLine_steps (v : Bool) (s : State) : (s.putFirqLine v).steps = s.steps := rfl

/-! ### `putIrqExt` -/

@[simp] theorem putIrqExt_a (v : Bool) (s : State) : (s.putIrqExt v).a = s.a := rfl
@[simp] theorem putIrqExt_b (v : Bool) (s : State) : (s.putIrqExt v).b = s.b := rfl
@[simp] theorem putIrqExt_x (v : Bool) (s : State) : (s.putIrqExt v).x = s.x := rfl
@[simp] theorem putIrqExt_y (v : Bool) (s : State) : (s.putIrqExt v).y = s.y := rfl
@[simp] theorem putIrqExt_u (v : Bool) (s : State) : (s.putIrqExt v).u = s.u := rfl
@[simp] theorem putIrqExt_s (v : Bool) (s : State) : (s.putIrqExt v).s = s.s := rfl
@[simp] theorem putIrqExt_pc (v : Bool) (s : State) : (s.putIrqExt v).pc = s.pc := rfl
@[simp] theorem putIrqExt_dp (v : Bool) (s : State) : (s.putIrqExt v).dp = s.dp := rfl
@[simp] theorem putIrqExt_cc (v : Bool) (s : State) : (s.putIrqExt v).cc = s.cc := rfl
@[simp] theorem putIrqExt_wait (v : Bool) (s : State) : (s.putIrqExt v).wait = s.wait := rfl
@[simp] theorem putIrqExt_nmiArmed (v : Bool) (s : State) : (s.putIrqExt v).nmiArmed = s.nmiArmed := rfl
@[simp] theorem putIrqExt_nmiPending (v : Bool) (s : State) : (s.putIrqExt v).nmiPending = s.nmiPending := rfl
@[simp] theorem putIrqExt_firqLine (v : Bool) (s : State) : (s.putIrqExt v).firqLine = s.firqLine := rfl
@[simp] theorem putIrqExt_irqExt (v : Bool) (s : State) : (s.putIrqExt v).irqExt = v := rfl
@[simp] theorem putIrqExt_resetLine (v : Bool) (s : State) : (s.putIrqExt v).resetLine = s.resetLine := rfl
@[simp] theorem putIrqExt_mem (v : Bool) (s : State) : (s.putIrqExt v).mem = s.mem := rfl
@[simp] theorem putIrqExt_via (v : Bool) (s : State) : (s.putIrqExt v).via = s.via := rfl
@[simp] theorem putIrqExt_params (v : Bool) (s : State) : (s.putIrqExt v).params = s.params := rfl
@[simp] theorem putIrqExt_inputs (v : Bool) (s : State) : (s.putIrqExt v).inputs = s.inputs := rfl
@[simp] theorem putIrqExt_draws (v : Bool) (s : State) : (s.putIrqExt v).draws = s.draws := rfl
@[simp] theorem putIrqExt_steps (v : Bool) (s : State) : (s.putIrqExt v).steps = s.steps := rfl

/-! ### `putResetLine` -/

@[simp] theorem putResetLine_a (v : Bool) (s : State) : (s.putResetLine v).a = s.a := rfl
@[simp] theorem putResetLine_b (v : Bool) (s : State) : (s.putResetLine v).b = s.b := rfl
@[simp] theorem putResetLine_x (v : Bool) (s : State) : (s.putResetLine v).x = s.x := rfl
@[simp] theorem putResetLine_y (v : Bool) (s : State) : (s.putResetLine v).y = s.y := rfl
@[simp] theorem putResetLine_u (v : Bool) (s : State) : (s.putResetLine v).u = s.u := rfl
@[simp] theorem putResetLine_s (v : Bool) (s : State) : (s.putResetLine v).s = s.s := rfl
@[simp] theorem putResetLine_pc (v : Bool) (s : State) : (s.putResetLine v).pc = s.pc := rfl
@[simp] theorem putResetLine_dp (v : Bool) (s : State) : (s.putResetLine v).dp = s.dp := rfl
@[simp] theorem putResetLine_cc (v : Bool) (s : State) : (s.putResetLine v).cc = s.cc := rfl
@[simp] theorem putResetLine_wait (v : Bool) (s : State) : (s.putResetLine v).wait = s.wait := rfl
@[simp] theorem putResetLine_nmiArmed (v : Bool) (s : State) : (s.putResetLine v).nmiArmed = s.nmiArmed := rfl
@[simp] theorem putResetLine_nmiPending (v : Bool) (s : State) : (s.putResetLine v).nmiPending = s.nmiPending := rfl
@[simp] theorem putResetLine_firqLine (v : Bool) (s : State) : (s.putResetLine v).firqLine = s.firqLine := rfl
@[simp] theorem putResetLine_irqExt (v : Bool) (s : State) : (s.putResetLine v).irqExt = s.irqExt := rfl
@[simp] theorem putResetLine_resetLine (v : Bool) (s : State) : (s.putResetLine v).resetLine = v := rfl
@[simp] theorem putResetLine_mem (v : Bool) (s : State) : (s.putResetLine v).mem = s.mem := rfl
@[simp] theorem putResetLine_via (v : Bool) (s : State) : (s.putResetLine v).via = s.via := rfl
@[simp] theorem putResetLine_params (v : Bool) (s : State) : (s.putResetLine v).params = s.params := rfl
@[simp] theorem putResetLine_inputs (v : Bool) (s : State) : (s.putResetLine v).inputs = s.inputs := rfl
@[simp] theorem putResetLine_draws (v : Bool) (s : State) : (s.putResetLine v).draws = s.draws := rfl
@[simp] theorem putResetLine_steps (v : Bool) (s : State) : (s.putResetLine v).steps = s.steps := rfl

/-! ### `putMem` -/

@[simp] theorem putMem_a (v : List Host.Cell) (s : State) : (s.putMem v).a = s.a := rfl
@[simp] theorem putMem_b (v : List Host.Cell) (s : State) : (s.putMem v).b = s.b := rfl
@[simp] theorem putMem_x (v : List Host.Cell) (s : State) : (s.putMem v).x = s.x := rfl
@[simp] theorem putMem_y (v : List Host.Cell) (s : State) : (s.putMem v).y = s.y := rfl
@[simp] theorem putMem_u (v : List Host.Cell) (s : State) : (s.putMem v).u = s.u := rfl
@[simp] theorem putMem_s (v : List Host.Cell) (s : State) : (s.putMem v).s = s.s := rfl
@[simp] theorem putMem_pc (v : List Host.Cell) (s : State) : (s.putMem v).pc = s.pc := rfl
@[simp] theorem putMem_dp (v : List Host.Cell) (s : State) : (s.putMem v).dp = s.dp := rfl
@[simp] theorem putMem_cc (v : List Host.Cell) (s : State) : (s.putMem v).cc = s.cc := rfl
@[simp] theorem putMem_wait (v : List Host.Cell) (s : State) : (s.putMem v).wait = s.wait := rfl
@[simp] theorem putMem_nmiArmed (v : List Host.Cell) (s : State) : (s.putMem v).nmiArmed = s.nmiArmed := rfl
@[simp] theorem putMem_nmiPending (v : List Host.Cell) (s : State) : (s.putMem v).nmiPending = s.nmiPending := rfl
@[simp] theorem putMem_firqLine (v : List Host.Cell) (s : State) : (s.putMem v).firqLine = s.firqLine := rfl
@[simp] theorem putMem_irqExt (v : List Host.Cell) (s : State) : (s.putMem v).irqExt = s.irqExt := rfl
@[simp] theorem putMem_resetLine (v : List Host.Cell) (s : State) : (s.putMem v).resetLine = s.resetLine := rfl
@[simp] theorem putMem_mem (v : List Host.Cell) (s : State) : (s.putMem v).mem = v := rfl
@[simp] theorem putMem_via (v : List Host.Cell) (s : State) : (s.putMem v).via = s.via := rfl
@[simp] theorem putMem_params (v : List Host.Cell) (s : State) : (s.putMem v).params = s.params := rfl
@[simp] theorem putMem_inputs (v : List Host.Cell) (s : State) : (s.putMem v).inputs = s.inputs := rfl
@[simp] theorem putMem_draws (v : List Host.Cell) (s : State) : (s.putMem v).draws = s.draws := rfl
@[simp] theorem putMem_steps (v : List Host.Cell) (s : State) : (s.putMem v).steps = s.steps := rfl

/-! ### `putVia` -/

@[simp] theorem putVia_a (v : Via) (s : State) : (s.putVia v).a = s.a := rfl
@[simp] theorem putVia_b (v : Via) (s : State) : (s.putVia v).b = s.b := rfl
@[simp] theorem putVia_x (v : Via) (s : State) : (s.putVia v).x = s.x := rfl
@[simp] theorem putVia_y (v : Via) (s : State) : (s.putVia v).y = s.y := rfl
@[simp] theorem putVia_u (v : Via) (s : State) : (s.putVia v).u = s.u := rfl
@[simp] theorem putVia_s (v : Via) (s : State) : (s.putVia v).s = s.s := rfl
@[simp] theorem putVia_pc (v : Via) (s : State) : (s.putVia v).pc = s.pc := rfl
@[simp] theorem putVia_dp (v : Via) (s : State) : (s.putVia v).dp = s.dp := rfl
@[simp] theorem putVia_cc (v : Via) (s : State) : (s.putVia v).cc = s.cc := rfl
@[simp] theorem putVia_wait (v : Via) (s : State) : (s.putVia v).wait = s.wait := rfl
@[simp] theorem putVia_nmiArmed (v : Via) (s : State) : (s.putVia v).nmiArmed = s.nmiArmed := rfl
@[simp] theorem putVia_nmiPending (v : Via) (s : State) : (s.putVia v).nmiPending = s.nmiPending := rfl
@[simp] theorem putVia_firqLine (v : Via) (s : State) : (s.putVia v).firqLine = s.firqLine := rfl
@[simp] theorem putVia_irqExt (v : Via) (s : State) : (s.putVia v).irqExt = s.irqExt := rfl
@[simp] theorem putVia_resetLine (v : Via) (s : State) : (s.putVia v).resetLine = s.resetLine := rfl
@[simp] theorem putVia_mem (v : Via) (s : State) : (s.putVia v).mem = s.mem := rfl
@[simp] theorem putVia_via (v : Via) (s : State) : (s.putVia v).via = v := rfl
@[simp] theorem putVia_params (v : Via) (s : State) : (s.putVia v).params = s.params := rfl
@[simp] theorem putVia_inputs (v : Via) (s : State) : (s.putVia v).inputs = s.inputs := rfl
@[simp] theorem putVia_draws (v : Via) (s : State) : (s.putVia v).draws = s.draws := rfl
@[simp] theorem putVia_steps (v : Via) (s : State) : (s.putVia v).steps = s.steps := rfl

/-! ### `putInputs` -/

@[simp] theorem putInputs_a (v : List (List HostEvent)) (s : State) : (s.putInputs v).a = s.a := rfl
@[simp] theorem putInputs_b (v : List (List HostEvent)) (s : State) : (s.putInputs v).b = s.b := rfl
@[simp] theorem putInputs_x (v : List (List HostEvent)) (s : State) : (s.putInputs v).x = s.x := rfl
@[simp] theorem putInputs_y (v : List (List HostEvent)) (s : State) : (s.putInputs v).y = s.y := rfl
@[simp] theorem putInputs_u (v : List (List HostEvent)) (s : State) : (s.putInputs v).u = s.u := rfl
@[simp] theorem putInputs_s (v : List (List HostEvent)) (s : State) : (s.putInputs v).s = s.s := rfl
@[simp] theorem putInputs_pc (v : List (List HostEvent)) (s : State) : (s.putInputs v).pc = s.pc := rfl
@[simp] theorem putInputs_dp (v : List (List HostEvent)) (s : State) : (s.putInputs v).dp = s.dp := rfl
@[simp] theorem putInputs_cc (v : List (List HostEvent)) (s : State) : (s.putInputs v).cc = s.cc := rfl
@[simp] theorem putInputs_wait (v : List (List HostEvent)) (s : State) : (s.putInputs v).wait = s.wait := rfl
@[simp] theorem putInputs_nmiArmed (v : List (List HostEvent)) (s : State) : (s.putInputs v).nmiArmed = s.nmiArmed := rfl
@[simp] theorem putInputs_nmiPending (v : List (List HostEvent)) (s : State) : (s.putInputs v).nmiPending = s.nmiPending := rfl
@[simp] theorem putInputs_firqLine (v : List (List HostEvent)) (s : State) : (s.putInputs v).firqLine = s.firqLine := rfl
@[simp] theorem putInputs_irqExt (v : List (List HostEvent)) (s : State) : (s.putInputs v).irqExt = s.irqExt := rfl
@[simp] theorem putInputs_resetLine (v : List (List HostEvent)) (s : State) : (s.putInputs v).resetLine = s.resetLine := rfl
@[simp] theorem putInputs_mem (v : List (List HostEvent)) (s : State) : (s.putInputs v).mem = s.mem := rfl
@[simp] theorem putInputs_via (v : List (List HostEvent)) (s : State) : (s.putInputs v).via = s.via := rfl
@[simp] theorem putInputs_params (v : List (List HostEvent)) (s : State) : (s.putInputs v).params = s.params := rfl
@[simp] theorem putInputs_inputs (v : List (List HostEvent)) (s : State) : (s.putInputs v).inputs = v := rfl
@[simp] theorem putInputs_draws (v : List (List HostEvent)) (s : State) : (s.putInputs v).draws = s.draws := rfl
@[simp] theorem putInputs_steps (v : List (List HostEvent)) (s : State) : (s.putInputs v).steps = s.steps := rfl

/-! ### `putDraws` -/

@[simp] theorem putDraws_a (v : Nat) (s : State) : (s.putDraws v).a = s.a := rfl
@[simp] theorem putDraws_b (v : Nat) (s : State) : (s.putDraws v).b = s.b := rfl
@[simp] theorem putDraws_x (v : Nat) (s : State) : (s.putDraws v).x = s.x := rfl
@[simp] theorem putDraws_y (v : Nat) (s : State) : (s.putDraws v).y = s.y := rfl
@[simp] theorem putDraws_u (v : Nat) (s : State) : (s.putDraws v).u = s.u := rfl
@[simp] theorem putDraws_s (v : Nat) (s : State) : (s.putDraws v).s = s.s := rfl
@[simp] theorem putDraws_pc (v : Nat) (s : State) : (s.putDraws v).pc = s.pc := rfl
@[simp] theorem putDraws_dp (v : Nat) (s : State) : (s.putDraws v).dp = s.dp := rfl
@[simp] theorem putDraws_cc (v : Nat) (s : State) : (s.putDraws v).cc = s.cc := rfl
@[simp] theorem putDraws_wait (v : Nat) (s : State) : (s.putDraws v).wait = s.wait := rfl
@[simp] theorem putDraws_nmiArmed (v : Nat) (s : State) : (s.putDraws v).nmiArmed = s.nmiArmed := rfl
@[simp] theorem putDraws_nmiPending (v : Nat) (s : State) : (s.putDraws v).nmiPending = s.nmiPending := rfl
@[simp] theorem putDraws_firqLine (v : Nat) (s : State) : (s.putDraws v).firqLine = s.firqLine := rfl
@[simp] theorem putDraws_irqExt (v : Nat) (s : State) : (s.putDraws v).irqExt = s.irqExt := rfl
@[simp] theorem putDraws_resetLine (v : Nat) (s : State) : (s.putDraws v).resetLine = s.resetLine := rfl
@[simp] theorem putDraws_mem (v : Nat) (s : State) : (s.putDraws v).mem = s.mem := rfl
@[simp] theorem putDraws_via (v : Nat) (s : State) : (s.putDraws v).via = s.via := rfl
@[simp] theorem putDraws_params (v : Nat) (s : State) : (s.putDraws v).params = s.params := rfl
@[simp] theorem putDraws_inputs (v : Nat) (s : State) : (s.putDraws v).inputs = s.inputs := rfl
@[simp] theorem putDraws_draws (v : Nat) (s : State) : (s.putDraws v).draws = v := rfl
@[simp] theorem putDraws_steps (v : Nat) (s : State) : (s.putDraws v).steps = s.steps := rfl

/-! ### `putSteps` -/

@[simp] theorem putSteps_a (v : Nat) (s : State) : (s.putSteps v).a = s.a := rfl
@[simp] theorem putSteps_b (v : Nat) (s : State) : (s.putSteps v).b = s.b := rfl
@[simp] theorem putSteps_x (v : Nat) (s : State) : (s.putSteps v).x = s.x := rfl
@[simp] theorem putSteps_y (v : Nat) (s : State) : (s.putSteps v).y = s.y := rfl
@[simp] theorem putSteps_u (v : Nat) (s : State) : (s.putSteps v).u = s.u := rfl
@[simp] theorem putSteps_s (v : Nat) (s : State) : (s.putSteps v).s = s.s := rfl
@[simp] theorem putSteps_pc (v : Nat) (s : State) : (s.putSteps v).pc = s.pc := rfl
@[simp] theorem putSteps_dp (v : Nat) (s : State) : (s.putSteps v).dp = s.dp := rfl
@[simp] theorem putSteps_cc (v : Nat) (s : State) : (s.putSteps v).cc = s.cc := rfl
@[simp] theorem putSteps_wait (v : Nat) (s : State) : (s.putSteps v).wait = s.wait := rfl
@[simp] theorem putSteps_nmiArmed (v : Nat) (s : State) : (s.putSteps v).nmiArmed = s.nmiArmed := rfl
@[simp] theorem putSteps_nmiPending (v : Nat) (s : State) : (s.putSteps v).nmiPending = s.nmiPending := rfl
@[simp] theorem putSteps_firqLine (v : Nat) (s : State) : (s.putSteps v).firqLine = s.firqLine := rfl
@[simp] theorem putSteps_irqExt (v : Nat) (s : State) : (s.putSteps v).irqExt = s.irqExt := rfl
@[simp] theorem putSteps_resetLine (v : Nat) (s : State) : (s.putSteps v).resetLine = s.resetLine := rfl
@[simp] theorem putSteps_mem (v : Nat) (s : State) : (s.putSteps v).mem = s.mem := rfl
@[simp] theorem putSteps_via (v : Nat) (s : State) : (s.putSteps v).via = s.via := rfl
@[simp] theorem putSteps_params (v : Nat) (s : State) : (s.putSteps v).params = s.params := rfl
@[simp] theorem putSteps_inputs (v : Nat) (s : State) : (s.putSteps v).inputs = s.inputs := rfl
@[simp] theorem putSteps_draws (v : Nat) (s : State) : (s.putSteps v).draws = s.draws := rfl
@[simp] theorem putSteps_steps (v : Nat) (s : State) : (s.putSteps v).steps = v := rfl

/-! ### `loadS` -/

@[simp] theorem loadS_a (v : Word) (s : State) : (s.loadS v).a = s.a := rfl
@[simp] theorem loadS_b (v : Word) (s : State) : (s.loadS v).b = s.b := rfl
@[simp] theorem loadS_x (v : Word) (s : State) : (s.loadS v).x = s.x := rfl
@[simp] theorem loadS_y (v : Word) (s : State) : (s.loadS v).y = s.y := rfl
@[simp] theorem loadS_u (v : Word) (s : State) : (s.loadS v).u = s.u := rfl
@[simp] theorem loadS_s (v : Word) (s : State) : (s.loadS v).s = v := rfl
@[simp] theorem loadS_pc (v : Word) (s : State) : (s.loadS v).pc = s.pc := rfl
@[simp] theorem loadS_dp (v : Word) (s : State) : (s.loadS v).dp = s.dp := rfl
@[simp] theorem loadS_cc (v : Word) (s : State) : (s.loadS v).cc = s.cc := rfl
@[simp] theorem loadS_wait (v : Word) (s : State) : (s.loadS v).wait = s.wait := rfl
@[simp] theorem loadS_nmiArmed (v : Word) (s : State) : (s.loadS v).nmiArmed = true := rfl
@[simp] theorem loadS_nmiPending (v : Word) (s : State) : (s.loadS v).nmiPending = s.nmiPending := rfl
@[simp] theorem loadS_firqLine (v : Word) (s : State) : (s.loadS v).firqLine = s.firqLine := rfl
@[simp] theorem loadS_irqExt (v : Word) (s : State) : (s.loadS v).irqExt = s.irqExt := rfl
@[simp] theorem loadS_resetLine (v : Word) (s : State) : (s.loadS v).resetLine = s.resetLine := rfl
@[simp] theorem loadS_mem (v : Word) (s : State) : (s.loadS v).mem = s.mem := rfl
@[simp] theorem loadS_via (v : Word) (s : State) : (s.loadS v).via = s.via := rfl
@[simp] theorem loadS_params (v : Word) (s : State) : (s.loadS v).params = s.params := rfl
@[simp] theorem loadS_inputs (v : Word) (s : State) : (s.loadS v).inputs = s.inputs := rfl
@[simp] theorem loadS_draws (v : Word) (s : State) : (s.loadS v).draws = s.draws := rfl
@[simp] theorem loadS_steps (v : Word) (s : State) : (s.loadS v).steps = s.steps := rfl

/-! ### `putD` -/

@[simp] theorem putD_a (v : Word) (s : State) : (s.putD v).a = hiByte v := rfl
@[simp] theorem putD_b (v : Word) (s : State) : (s.putD v).b = loByte v := rfl
@[simp] theorem putD_x (v : Word) (s : State) : (s.putD v).x = s.x := rfl
@[simp] theorem putD_y (v : Word) (s : State) : (s.putD v).y = s.y := rfl
@[simp] theorem putD_u (v : Word) (s : State) : (s.putD v).u = s.u := rfl
@[simp] theorem putD_s (v : Word) (s : State) : (s.putD v).s = s.s := rfl
@[simp] theorem putD_pc (v : Word) (s : State) : (s.putD v).pc = s.pc := rfl
@[simp] theorem putD_dp (v : Word) (s : State) : (s.putD v).dp = s.dp := rfl
@[simp] theorem putD_cc (v : Word) (s : State) : (s.putD v).cc = s.cc := rfl
@[simp] theorem putD_wait (v : Word) (s : State) : (s.putD v).wait = s.wait := rfl
@[simp] theorem putD_nmiArmed (v : Word) (s : State) : (s.putD v).nmiArmed = s.nmiArmed := rfl
@[simp] theorem putD_nmiPending (v : Word) (s : State) : (s.putD v).nmiPending = s.nmiPending := rfl
@[simp] theorem putD_firqLine (v : Word) (s : State) : (s.putD v).firqLine = s.firqLine := rfl
@[simp] theorem putD_irqExt (v : Word) (s : State) : (s.putD v).irqExt = s.irqExt := rfl
@[simp] theorem putD_resetLine (v : Word) (s : State) : (s.putD v).resetLine = s.resetLine := rfl
@[simp] theorem putD_mem (v : Word) (s : State) : (s.putD v).mem = s.mem := rfl
@[simp] theorem putD_via (v : Word) (s : State) : (s.putD v).via = s.via := rfl
@[simp] theorem putD_params (v : Word) (s : State) : (s.putD v).params = s.params := rfl
@[simp] theorem putD_inputs (v : Word) (s : State) : (s.putD v).inputs = s.inputs := rfl
@[simp] theorem putD_draws (v : Word) (s : State) : (s.putD v).draws = s.draws := rfl
@[simp] theorem putD_steps (v : Word) (s : State) : (s.putD v).steps = s.steps := rfl

/-! ### `drawBit` -/

@[simp] theorem drawBit_a (s : State) : (drawBit s).2.a = s.a := rfl
@[simp] theorem drawBit_b (s : State) : (drawBit s).2.b = s.b := rfl
@[simp] theorem drawBit_x (s : State) : (drawBit s).2.x = s.x := rfl
@[simp] theorem drawBit_y (s : State) : (drawBit s).2.y = s.y := rfl
@[simp] theorem drawBit_u (s : State) : (drawBit s).2.u = s.u := rfl
@[simp] theorem drawBit_s (s : State) : (drawBit s).2.s = s.s := rfl
@[simp] theorem drawBit_pc (s : State) : (drawBit s).2.pc = s.pc := rfl
@[simp] theorem drawBit_dp (s : State) : (drawBit s).2.dp = s.dp := rfl
@[simp] theorem drawBit_cc (s : State) : (drawBit s).2.cc = s.cc := rfl
@[simp] theorem drawBit_wait (s : State) : (drawBit s).2.wait = s.wait := rfl
@[simp] theorem drawBit_nmiArmed (s : State) : (drawBit s).2.nmiArmed = s.nmiArmed := rfl
@[simp] theorem drawBit_nmiPending (s : State) : (drawBit s).2.nmiPending = s.nmiPending := rfl
@[simp] theorem drawBit_firqLine (s : State) : (drawBit s).2.firqLine = s.firqLine := rfl
@[simp] theorem drawBit_irqExt (s : State) : (drawBit s).2.irqExt = s.irqExt := rfl
@[simp] theorem drawBit_resetLine (s : State) : (drawBit s).2.resetLine = s.resetLine := rfl
@[simp] theorem drawBit_mem (s : State) : (drawBit s).2.mem = s.mem := rfl
@[simp] theorem drawBit_via (s : State) : (drawBit s).2.via = s.via := rfl
@[simp] theorem drawBit_params (s : State) : (drawBit s).2.params = s.params := rfl
@[simp] theorem drawBit_inputs (s : State) : (drawBit s).2.inputs = s.inputs := rfl
@[simp] theorem drawBit_draws (s : State) : (drawBit s).2.draws = s.draws + 1 := rfl
@[simp] theorem drawBit_steps (s : State) : (drawBit s).2.steps = s.steps := rfl

/-! ### `drawByte` -/

@[simp] theorem drawByte_a (s : State) : (drawByte s).2.a = s.a := rfl
@[simp] theorem drawByte_b (s : State) : (drawByte s).2.b = s.b := rfl
@[simp] theorem drawByte_x (s : State) : (drawByte s).2.x = s.x := rfl
@[simp] theorem drawByte_y (s : State) : (drawByte s).2.y = s.y := rfl
@[simp] theorem drawByte_u (s : State) : (drawByte s).2.u = s.u := rfl
@[simp] theorem drawByte_s (s : State) : (drawByte s).2.s = s.s := rfl
@[simp] theorem drawByte_pc (s : State) : (drawByte s).2.pc = s.pc := rfl
@[simp] theorem drawByte_dp (s : State) : (drawByte s).2.dp = s.dp := rfl
@[simp] theorem drawByte_cc (s : State) : (drawByte s).2.cc = s.cc := rfl
@[simp] theorem drawByte_wait (s : State) : (drawByte s).2.wait = s.wait := rfl
@[simp] theorem drawByte_nmiArmed (s : State) : (drawByte s).2.nmiArmed = s.nmiArmed := rfl
@[simp] theorem drawByte_nmiPending (s : State) : (drawByte s).2.nmiPending = s.nmiPending := rfl
@[simp] theorem drawByte_firqLine (s : State) : (drawByte s).2.firqLine = s.firqLine := rfl
@[simp] theorem drawByte_irqExt (s : State) : (drawByte s).2.irqExt = s.irqExt := rfl
@[simp] theorem drawByte_resetLine (s : State) : (drawByte s).2.resetLine = s.resetLine := rfl
@[simp] theorem drawByte_mem (s : State) : (drawByte s).2.mem = s.mem := rfl
@[simp] theorem drawByte_via (s : State) : (drawByte s).2.via = s.via := rfl
@[simp] theorem drawByte_params (s : State) : (drawByte s).2.params = s.params := rfl
@[simp] theorem drawByte_inputs (s : State) : (drawByte s).2.inputs = s.inputs := rfl
@[simp] theorem drawByte_draws (s : State) : (drawByte s).2.draws = s.draws + 1 := rfl
@[simp] theorem drawByte_steps (s : State) : (drawByte s).2.steps = s.steps := rfl

/-! ### `drawWord` -/

@[simp] theorem drawWord_a (s : State) : (drawWord s).2.a = s.a := rfl
@[simp] theorem drawWord_b (s : State) : (drawWord s).2.b = s.b := rfl
@[simp] theorem drawWord_x (s : State) : (drawWord s).2.x = s.x := rfl
@[simp] theorem drawWord_y (s : State) : (drawWord s).2.y = s.y := rfl
@[simp] theorem drawWord_u (s : State) : (drawWord s).2.u = s.u := rfl
@[simp] theorem drawWord_s (s : State) : (drawWord s).2.s = s.s := rfl
@[simp] theorem drawWord_pc (s : State) : (drawWord s).2.pc = s.pc := rfl
@[simp] theorem drawWord_dp (s : State) : (drawWord s).2.dp = s.dp := rfl
@[simp] theorem drawWord_cc (s : State) : (drawWord s).2.cc = s.cc := rfl
@[simp] theorem drawWord_wait (s : State) : (drawWord s).2.wait = s.wait := rfl
@[simp] theorem drawWord_nmiArmed (s : State) : (drawWord s).2.nmiArmed = s.nmiArmed := rfl
@[simp] theorem drawWord_nmiPending (s : State) : (drawWord s).2.nmiPending = s.nmiPending := rfl
@[simp] theorem drawWord_firqLine (s : State) : (drawWord s).2.firqLine = s.firqLine := rfl
@[simp] theorem drawWord_irqExt (s : State) : (drawWord s).2.irqExt = s.irqExt := rfl
@[simp] theorem drawWord_resetLine (s : State) : (drawWord s).2.resetLine = s.resetLine := rfl
@[simp] theorem drawWord_mem (s : State) : (drawWord s).2.mem = s.mem := rfl
@[simp] theorem drawWord_via (s : State) : (drawWord s).2.via = s.via := rfl
@[simp] theorem drawWord_params (s : State) : (drawWord s).2.params = s.params := rfl
@[simp] theorem drawWord_inputs (s : State) : (drawWord s).2.inputs = s.inputs := rfl
@[simp] theorem drawWord_draws (s : State) : (drawWord s).2.draws = s.draws + 2 := rfl
@[simp] theorem drawWord_steps (s : State) : (drawWord s).2.steps = s.steps := rfl

end Sys2Proof.Machine
end

