-- ==== Sys2Proof/Laws/Ops.lean ====
section
/-! SUPPORT. What the bus operations can do: a read changes at most the VIA and the count of free values, a write at most
memory, the VIA and that count; what each does for each kind of address. -/

namespace Sys2Proof.Machine

/-! ### The ticks before an access -/

@[simp] theorem elapse_a (s : State) : (elapse s).a = s.a := rfl
@[simp] theorem elapse_b (s : State) : (elapse s).b = s.b := rfl
@[simp] theorem elapse_x (s : State) : (elapse s).x = s.x := rfl
@[simp] theorem elapse_y (s : State) : (elapse s).y = s.y := rfl
@[simp] theorem elapse_u (s : State) : (elapse s).u = s.u := rfl
@[simp] theorem elapse_s (s : State) : (elapse s).s = s.s := rfl
@[simp] theorem elapse_pc (s : State) : (elapse s).pc = s.pc := rfl
@[simp] theorem elapse_dp (s : State) : (elapse s).dp = s.dp := rfl
@[simp] theorem elapse_cc (s : State) : (elapse s).cc = s.cc := rfl
@[simp] theorem elapse_wait (s : State) : (elapse s).wait = s.wait := rfl
@[simp] theorem elapse_nmiArmed (s : State) : (elapse s).nmiArmed = s.nmiArmed := rfl
@[simp] theorem elapse_nmiPending (s : State) : (elapse s).nmiPending = s.nmiPending := rfl
@[simp] theorem elapse_firqLine (s : State) : (elapse s).firqLine = s.firqLine := rfl
@[simp] theorem elapse_irqExt (s : State) : (elapse s).irqExt = s.irqExt := rfl
@[simp] theorem elapse_resetLine (s : State) : (elapse s).resetLine = s.resetLine := rfl
@[simp] theorem elapse_mem (s : State) : (elapse s).mem = s.mem := rfl
@[simp] theorem elapse_params (s : State) : (elapse s).params = s.params := rfl
@[simp] theorem elapse_inputs (s : State) : (elapse s).inputs = s.inputs := rfl
@[simp] theorem elapse_steps (s : State) : (elapse s).steps = s.steps := rfl
@[simp] theorem elapse_via (s : State) : (elapse s).via = viaAdvance (Config.accessTicks s.draws) s.via := rfl
@[simp] theorem elapse_draws (s : State) : (elapse s).draws = s.draws + 1 := rfl

/-! ### Reads -/

@[simp] theorem memRead8_a (a : Word) (s : State) : (memRead8 a s).2.a = s.a := by
  unfold memRead8; split <;> rfl
@[simp] theorem memRead8_b (a : Word) (s : State) : (memRead8 a s).2.b = s.b := by
  unfold memRead8; split <;> rfl
@[simp] theorem memRead8_x (a : Word) (s : State) : (memRead8 a s).2.x = s.x := by
  unfold memRead8; split <;> rfl
@[simp] theorem memRead8_y (a : Word) (s : State) : (memRead8 a s).2.y = s.y := by
  unfold memRead8; split <;> rfl
@[simp] theorem memRead8_u (a : Word) (s : State) : (memRead8 a s).2.u = s.u := by
  unfold memRead8; split <;> rfl
@[simp] theorem memRead8_s (a : Word) (s : State) : (memRead8 a s).2.s = s.s := by
  unfold memRead8; split <;> rfl
@[simp] theorem memRead8_pc (a : Word) (s : State) : (memRead8 a s).2.pc = s.pc := by
  unfold memRead8; split <;> rfl
@[simp] theorem memRead8_dp (a : Word) (s : State) : (memRead8 a s).2.dp = s.dp := by
  unfold memRead8; split <;> rfl
@[simp] theorem memRead8_cc (a : Word) (s : State) : (memRead8 a s).2.cc = s.cc := by
  unfold memRead8; split <;> rfl
@[simp] theorem memRead8_wait (a : Word) (s : State) : (memRead8 a s).2.wait = s.wait := by
  unfold memRead8; split <;> rfl
@[simp] theorem memRead8_nmiArmed (a : Word) (s : State) : (memRead8 a s).2.nmiArmed = s.nmiArmed := by
  unfold memRead8; split <;> rfl
@[simp] theorem memRead8_nmiPending (a : Word) (s : State) : (memRead8 a s).2.nmiPending = s.nmiPending := by
  unfold memRead8; split <;> rfl
@[simp] theorem memRead8_firqLine (a : Word) (s : State) : (memRead8 a s).2.firqLine = s.firqLine := by
  unfold memRead8; split <;> rfl
@[simp] theorem memRead8_irqExt (a : Word) (s : State) : (memRead8 a s).2.irqExt = s.irqExt := by
  unfold memRead8; split <;> rfl
@[simp] theorem memRead8_resetLine (a : Word) (s : State) : (memRead8 a s).2.resetLine = s.resetLine := by
  unfold memRead8; split <;> rfl
@[simp] theorem memRead8_mem (a : Word) (s : State) : (memRead8 a s).2.mem = s.mem := by
  unfold memRead8; split <;> rfl
@[simp] theorem memRead8_params (a : Word) (s : State) : (memRead8 a s).2.params = s.params := by
  unfold memRead8; split <;> rfl
@[simp] theorem memRead8_inputs (a : Word) (s : State) : (memRead8 a s).2.inputs = s.inputs := by
  unfold memRead8; split <;> rfl
@[simp] theorem memRead8_steps (a : Word) (s : State) : (memRead8 a s).2.steps = s.steps := by
  unfold memRead8; split <;> rfl

/-! ### Writes -/

@[simp] theorem memWrite8_a (a : Word) (v : Byte) (s : State) : (memWrite8 a v s).a = s.a := by
  unfold memWrite8; split <;> rfl
@[simp] theorem memWrite8_b (a : Word) (v : Byte) (s : State) : (memWrite8 a v s).b = s.b := by
  unfold memWrite8; split <;> rfl
@[simp] theorem memWrite8_x (a : Word) (v : Byte) (s : State) : (memWrite8 a v s).x = s.x := by
  unfold memWrite8; split <;> rfl
@[simp] theorem memWrite8_y (a : Word) (v : Byte) (s : State) : (memWrite8 a v s).y = s.y := by
  unfold memWrite8; split <;> rfl
@[simp] theorem memWrite8_u (a : Word) (v : Byte) (s : State) : (memWrite8 a v s).u = s.u := by
  unfold memWrite8; split <;> rfl
@[simp] theorem memWrite8_s (a : Word) (v : Byte) (s : State) : (memWrite8 a v s).s = s.s := by
  unfold memWrite8; split <;> rfl
@[simp] theorem memWrite8_pc (a : Word) (v : Byte) (s : State) : (memWrite8 a v s).pc = s.pc := by
  unfold memWrite8; split <;> rfl
@[simp] theorem memWrite8_dp (a : Word) (v : Byte) (s : State) : (memWrite8 a v s).dp = s.dp := by
  unfold memWrite8; split <;> rfl
@[simp] theorem memWrite8_cc (a : Word) (v : Byte) (s : State) : (memWrite8 a v s).cc = s.cc := by
  unfold memWrite8; split <;> rfl
@[simp] theorem memWrite8_wait (a : Word) (v : Byte) (s : State) : (memWrite8 a v s).wait = s.wait := by
  unfold memWrite8; split <;> rfl
@[simp] theorem memWrite8_nmiArmed (a : Word) (v : Byte) (s : State) : (memWrite8 a v s).nmiArmed = s.nmiArmed := by
  unfold memWrite8; split <;> rfl
@[simp] theorem memWrite8_nmiPending (a : Word) (v : Byte) (s : State) : (memWrite8 a v s).nmiPending = s.nmiPending := by
  unfold memWrite8; split <;> rfl
@[simp] theorem memWrite8_firqLine (a : Word) (v : Byte) (s : State) : (memWrite8 a v s).firqLine = s.firqLine := by
  unfold memWrite8; split <;> rfl
@[simp] theorem memWrite8_irqExt (a : Word) (v : Byte) (s : State) : (memWrite8 a v s).irqExt = s.irqExt := by
  unfold memWrite8; split <;> rfl
@[simp] theorem memWrite8_resetLine (a : Word) (v : Byte) (s : State) : (memWrite8 a v s).resetLine = s.resetLine := by
  unfold memWrite8; split <;> rfl
@[simp] theorem memWrite8_params (a : Word) (v : Byte) (s : State) : (memWrite8 a v s).params = s.params := by
  unfold memWrite8; split <;> rfl
@[simp] theorem memWrite8_inputs (a : Word) (v : Byte) (s : State) : (memWrite8 a v s).inputs = s.inputs := by
  unfold memWrite8; split <;> rfl
@[simp] theorem memWrite8_steps (a : Word) (v : Byte) (s : State) : (memWrite8 a v s).steps = s.steps := by
  unfold memWrite8; split <;> rfl

/-! ### By kind of address -/

/-- An access to the VIA comes after a number of ticks of which nothing is known. -/
theorem elapse_eq (s : State) :
    ∃ n, elapse s = (s.putVia (viaAdvance n s.via)).putDraws (s.draws + 1) := ⟨_, rfl⟩

theorem memRead8_via {a : Word} {s : State} (h : addressKind s.params a = .via) :
    memRead8 a s = ((viaRead s.params.timerClear (viaRegister a) (elapse s).via).1,
      (elapse s).putVia (viaRead s.params.timerClear (viaRegister a) (elapse s).via).2) := by
  simp only [memRead8, h]
  rfl

theorem memWrite8_via {a : Word} {v : Byte} {s : State} (h : addressKind s.params a = .via) :
    memWrite8 a v s = (elapse s).putVia (viaWrite (viaRegister a) v (elapse s).via) := by
  simp [memWrite8, h]

theorem memRead8_plain {a : Word} {s : State} (h : addressKind s.params a = .ram ∨ addressKind s.params a = .rom) :
    memRead8 a s = (Memory.read s.mem a.toNat, s) := by
  rcases h with h | h <;> simp [memRead8, h]

theorem memWrite8_ram {a : Word} {v : Byte} {s : State} (h : addressKind s.params a = .ram) :
    memWrite8 a v s = s.putMem (Memory.write s.mem a.toNat v) := by
  simp [memWrite8, h]

/-- A byte that is not RAM, or is not the one addressed, reads as before. -/
theorem memWrite8_other {a b : Word} {v : Byte} {s : State} (h : b ≠ a ∨ addressKind s.params b ≠ .ram) :
    Memory.read (memWrite8 a v s).mem b.toNat = Memory.read s.mem b.toNat := by
  unfold memWrite8
  split
  · rename_i hk
    have hne : b ≠ a := by
      rcases h with h | h
      · exact h
      · intro e; subst e; exact h hk
    exact Memory.read_write_other (fun e => hne (BitVec.eq_of_toNat_eq e))
  all_goals rfl

theorem memWrite8_wf {a : Word} {v : Byte} {s : State} (h : Memory.wf s.mem = true) :
    Memory.wf (memWrite8 a v s).mem = true := by
  unfold memWrite8
  split
  · exact Memory.wf_write h a.isLt
  all_goals exact h

/-! ### D -/

/-- A word is its high byte times 256 and its low byte. -/
theorem joinBytes_toNat (h l : Byte) : (joinBytes h l).toNat = h.toNat * 256 + l.toNat := by
  simp only [joinBytes, BitVec.toNat_append]
  have := l.isLt
  rw [← Nat.shiftLeft_add_eq_or_of_lt this, Nat.shiftLeft_eq]

theorem joinBytes_halves (v : Word) : joinBytes (hiByte v) (loByte v) = v := by
  apply BitVec.eq_of_toNat_eq
  have := v.isLt
  rw [joinBytes_toNat]
  simp only [hiByte, loByte, BitVec.extractLsb'_toNat, Nat.shiftRight_eq_div_pow]
  omega

@[simp] theorem hiByte_join (h l : Byte) : hiByte (joinBytes h l) = h := by
  apply BitVec.eq_of_toNat_eq
  have := h.isLt
  have := l.isLt
  simp only [hiByte, BitVec.extractLsb'_toNat, Nat.shiftRight_eq_div_pow, joinBytes_toNat]
  omega

@[simp] theorem loByte_join (h l : Byte) : loByte (joinBytes h l) = l := by
  apply BitVec.eq_of_toNat_eq
  have := h.isLt
  have := l.isLt
  simp only [loByte, BitVec.extractLsb'_toNat, Nat.shiftRight_eq_div_pow, joinBytes_toNat]
  omega

/-- Writing D and reading it gives the word written. -/
@[simp] theorem putD_d (v : Word) (s : State) : (s.putD v).d = v := joinBytes_halves v

end Sys2Proof.Machine
end

