-- ==== Sys2Proof/Laws/Decode.lean ====
section
/-! SUPPORT. Reading bytes off the front of a list, the operands' own round trips, and the rows of the opcode map held against
the encoder. -/

namespace Sys2Proof

@[simp] theorem takeByte_cons (v : Byte) (rest : List Byte) : takeByte (v :: rest) = .ok v rest := rfl
@[simp] theorem takeByte_nil : takeByte [] = .more := rfl
@[simp] theorem andThen_ok {α β : Type} (v : α) (rest : List Byte) (f : α → List Byte → Parsed β) :
    (Parsed.ok v rest).andThen f = f v rest := rfl
@[simp] theorem andThen_more {α β : Type} (f : α → List Byte → Parsed β) : (Parsed.more : Parsed α).andThen f = .more := rfl
@[simp] theorem andThen_bad {α β : Type} (e : DecodeError) (f : α → List Byte → Parsed β) :
    (Parsed.bad e : Parsed α).andThen f = .bad e := rfl

@[simp] theorem takeWord_cons (h l : Byte) (rest : List Byte) :
    takeWord (h :: l :: rest) = .ok (Machine.joinBytes h l) rest := rfl

theorem takeByte_ok {bytes rest : List Byte} {v : Byte} (h : takeByte bytes = .ok v rest) : bytes = v :: rest := by
  cases bytes with
  | nil => cases h
  | cons b l => cases h; rfl

theorem takeWord_ok {bytes rest : List Byte} {v : Word} (h : takeWord bytes = .ok v rest) :
    bytes = Machine.hiByte v :: Machine.loByte v :: rest := by
  match bytes, h with
  | [], h => cases h
  | [_], h => cases h
  | a :: b :: l, h => cases h; simp

/-- A value read on after another. -/
theorem andThen_ok_iff {α β : Type} {p : Parsed α} {f : α → List Byte → Parsed β} {w : β} {rest : List Byte} :
    p.andThen f = .ok w rest ↔ ∃ v l, p = .ok v l ∧ f v l = .ok w rest := by
  cases p with
  | more => simp
  | bad e => simp
  | ok v l => simp

/-! ### Operands -/

theorem idxReg_roundtrip (r : IdxReg) : idxRegOfBits (idxRegBits r) = r := by cases r <;> rfl

theorem idxReg_roundtrip' (b : BitVec 2) : idxRegBits (idxRegOfBits b) = b := by revert b; decide

theorem postbyte_fields (r : IdxReg) (i : Bool) (m : BitVec 4) :
    (postbyte r i m).msb = true ∧ idxRegOfBits ((postbyte r i m).extractLsb' 5 2) = r ∧
    (postbyte r i m).getLsbD 4 = i ∧ (postbyte r i m).extractLsb' 0 4 = m := by
  revert r i m
  have h : ∀ (b : BitVec 2) (i : Bool) (m : BitVec 4),
      (1#1 ++ b ++ BitVec.ofBool i ++ m : Byte).msb = true ∧
      (1#1 ++ b ++ BitVec.ofBool i ++ m : Byte).extractLsb' 5 2 = b ∧
      (1#1 ++ b ++ BitVec.ofBool i ++ m : Byte).getLsbD 4 = i ∧
      (1#1 ++ b ++ BitVec.ofBool i ++ m : Byte).extractLsb' 0 4 = m := by decide
  intro r i m
  obtain ⟨h1, h2, h3, h4⟩ := h (idxRegBits r) i m
  exact ⟨h1, by rw [postbyte, h2, idxReg_roundtrip], h3, h4⟩

theorem postbyte_of_fields (pb : Byte) (h : pb.msb = true) :
    postbyte (idxRegOfBits (pb.extractLsb' 5 2)) (pb.getLsbD 4) (pb.extractLsb' 0 4) = pb := by
  rw [postbyte, idxReg_roundtrip']
  revert pb
  decide

theorem short_fields (r : IdxReg) (n : BitVec 5) :
    (0#1 ++ idxRegBits r ++ n : Byte).msb = false ∧
    idxRegOfBits ((0#1 ++ idxRegBits r ++ n : Byte).extractLsb' 5 2) = r ∧
    (0#1 ++ idxRegBits r ++ n : Byte).extractLsb' 0 5 = n := by
  have h : ∀ (b : BitVec 2) (n : BitVec 5), (0#1 ++ b ++ n : Byte).msb = false ∧
      (0#1 ++ b ++ n : Byte).extractLsb' 5 2 = b ∧ (0#1 ++ b ++ n : Byte).extractLsb' 0 5 = n := by decide
  obtain ⟨h1, h2, h3⟩ := h (idxRegBits r) n
  exact ⟨h1, by rw [h2, idxReg_roundtrip], h3⟩

theorem short_of_fields (pb : Byte) (h : pb.msb = false) :
    (0#1 ++ idxRegBits (idxRegOfBits (pb.extractLsb' 5 2)) ++ pb.extractLsb' 0 5 : Byte) = pb := by
  rw [idxReg_roundtrip']
  revert pb
  decide

theorem decodeIndexed_long (r : IdxReg) (i : Bool) (m : BitVec 4) (rest : List Byte) :
    decodeIndexed (postbyte r i m :: rest) = decodeMode (postbyte r i m) r i m.toNat rest := by
  obtain ⟨h1, h2, h3, h4⟩ := postbyte_fields r i m
  simp only [decodeIndexed, takeByte_cons, andThen_ok, h1, if_true, h2, h3, h4]

/-- An encoded indexed operand decodes to itself. -/
theorem decodeIndexed_encode (ix : Indexed) (rest : List Byte) :
    decodeIndexed (encodeIndexed ix ++ rest) = .ok ix rest := by
  cases ix with
  | off5 r n =>
    obtain ⟨h1, h2, h3⟩ := short_fields r n
    simp only [encodeIndexed, List.cons_append, List.nil_append, decodeIndexed, takeByte_cons, andThen_ok, h1,
      Bool.false_eq_true, if_false, h2, h3]
  | extInd n =>
    simp only [encodeIndexed, List.cons_append, List.nil_append, decodeIndexed_long]
    simp [decodeMode, Machine.joinBytes_halves]
  | _ =>
    simp only [encodeIndexed, List.cons_append, List.nil_append, decodeIndexed_long]
    simp [decodeMode, Machine.joinBytes_halves]

/-- The mode a decoded form has. -/
theorem decodeMode_ok {pb : Byte} {r : IdxReg} {i : Bool} {m : BitVec 4} {l rest : List Byte} {ix : Indexed}
    (h : decodeMode pb r i m.toNat l = .ok ix rest) : postbyte r i m :: l = encodeIndexed ix ++ rest := by
  have key : ∀ k : Nat, m.toNat = k → m = BitVec.ofNat 4 k := by
    intro k e; subst e; simp
  unfold decodeMode at h
  split at h
  case h_1 e =>
    split at h
    · cases h
    · rename_i hi; cases h; rw [key _ e]; simp only [Bool.not_eq_true] at hi; subst hi; rfl
  case h_2 e => cases h; rw [key _ e]; rfl
  case h_3 e =>
    split at h
    · cases h
    · rename_i hi; cases h; rw [key _ e]; simp only [Bool.not_eq_true] at hi; subst hi; rfl
  case h_4 e => cases h; rw [key _ e]; rfl
  case h_5 e => cases h; rw [key _ e]; rfl
  case h_6 e => cases h; rw [key _ e]; rfl
  case h_7 e => cases h; rw [key _ e]; rfl
  case h_8 e =>
    obtain ⟨v, l', h1, h2⟩ := andThen_ok_iff.mp h
    cases h2; rw [key _ e, takeByte_ok h1]; rfl
  case h_9 e =>
    obtain ⟨v, l', h1, h2⟩ := andThen_ok_iff.mp h
    cases h2; rw [key _ e, takeWord_ok h1]; rfl
  case h_10 e => cases h; rw [key _ e]; rfl
  case h_11 e =>
    obtain ⟨v, l', h1, h2⟩ := andThen_ok_iff.mp h
    cases h2; rw [key _ e, takeByte_ok h1]; rfl
  case h_12 e =>
    obtain ⟨v, l', h1, h2⟩ := andThen_ok_iff.mp h
    cases h2; rw [key _ e, takeWord_ok h1]; rfl
  case h_13 e =>
    split at h
    · rename_i hi
      simp only [Bool.and_eq_true, decide_eq_true_eq] at hi
      obtain ⟨v, l', h1, h2⟩ := andThen_ok_iff.mp h
      cases h2; rw [key _ e, takeWord_ok h1, hi.1, hi.2]; rfl
    · cases h
  case h_14 => cases h

/-- What the decoder reads as an indexed operand is the encoding of that operand. -/
theorem decodeIndexed_ok {bytes rest : List Byte} {ix : Indexed} (h : decodeIndexed bytes = .ok ix rest) :
    bytes = encodeIndexed ix ++ rest := by
  obtain ⟨pb, l, h1, h2⟩ := andThen_ok_iff.mp h
  rw [takeByte_ok h1]
  split at h2
  · rename_i hm
    have := decodeMode_ok h2
    rwa [postbyte_of_fields pb hm] at this
  · rename_i hm
    cases h2
    simp only [encodeIndexed, List.cons_append, List.nil_append]
    rw [short_of_fields pb (by simpa using hm)]

theorem regCode_roundtrip (r : RegCode) : regCodeOfBits (regCodeBits r) = some r := by cases r <;> rfl

theorem regCodeOfBits_some {b : BitVec 4} {r : RegCode} (h : regCodeOfBits b = some r) : b = regCodeBits r := by
  revert b r
  decide

theorem pair_fields (a b : BitVec 4) : (a ++ b : Byte).extractLsb' 4 4 = a ∧ (a ++ b : Byte).extractLsb' 0 4 = b := by
  revert a b
  decide

/-- An encoded register pair of one width decodes to itself. -/
theorem decodeRegPair_encode (f : RegCode → RegCode → Instr) {r1 r2 : RegCode} (h : Machine.isWide r1 = Machine.isWide r2)
    (rest : List Byte) : decodeRegPair f ((regCodeBits r1 ++ regCodeBits r2 : Byte) :: rest) = .ok (f r1 r2) rest := by
  obtain ⟨h1, h2⟩ := pair_fields (regCodeBits r1) (regCodeBits r2)
  simp only [decodeRegPair, takeByte_cons, andThen_ok, h1, h2, regCode_roundtrip, h, beq_self_eq_true, if_true]

/-- What the decoder reads as a register pair is the encoding of a pair of one width. -/
theorem decodeRegPair_ok {f : RegCode → RegCode → Instr} {bytes rest : List Byte} {i : Instr}
    (h : decodeRegPair f bytes = .ok i rest) : ∃ r1 r2, Machine.isWide r1 = Machine.isWide r2 ∧ i = f r1 r2 ∧
      bytes = (regCodeBits r1 ++ regCodeBits r2 : Byte) :: rest := by
  obtain ⟨pb, l, h1, h2⟩ := andThen_ok_iff.mp h
  rw [takeByte_ok h1]
  split at h2
  · rename_i r1 r2 e1 e2
    split at h2
    · rename_i hw
      cases h2
      refine ⟨r1, r2, by simpa using hw, rfl, ?_⟩
      rw [← regCodeOfBits_some e1, ← regCodeOfBits_some e2]
      congr 1
      have : ∀ p : Byte, p = (p.extractLsb' 4 4 ++ p.extractLsb' 0 4 : Byte) := by decide
      exact this pb
    · cases h2
  · cases h2

/-! ### Rows -/

/-- The encoder gives the instructions of a row the leading bytes `head` and then the operand of the row's format, and they
are well formed. -/
def Shape.Encodes (head : List Byte) : Shape → Prop
  | .inh i => encode i = head ∧ i.wf = true
  | .imm8 f | .direct f | .rel8 f | .stackMask f => ∀ v, encode (f v) = head ++ [v] ∧ (f v).wf = true
  | .imm16 f | .extended f | .rel16 f =>
    ∀ v, encode (f v) = head ++ [Machine.hiByte v, Machine.loByte v] ∧ (f v).wf = true
  | .indexed f => ∀ ix, encode (f ix) = head ++ encodeIndexed ix ∧ (f ix).wf = true
  | .regPair f => ∀ r1 r2, encode (f r1 r2) = head ++ [(regCodeBits r1 ++ regCodeBits r2 : Byte)] ∧
      (Machine.isWide r1 = Machine.isWide r2 → (f r1 r2).wf = true)

/-- What the decoder reads under a row is a well-formed instruction, and its operand bytes are those the encoder gives
it. -/
theorem decodeShape_ok {sh : Shape} {head bytes rest : List Byte} {i : Instr} (he : sh.Encodes head)
    (h : decodeShape sh bytes = .ok i rest) : i.wf = true ∧ head ++ bytes = encode i ++ rest := by
  cases sh with
  | inh j => cases h; exact ⟨he.2, by rw [he.1]⟩
  | regPair f =>
    obtain ⟨r1, r2, hw, rfl, rfl⟩ := decodeRegPair_ok h
    exact ⟨(he r1 r2).2 hw, by rw [(he r1 r2).1]; simp⟩
  | indexed f =>
    obtain ⟨v, l, h1, h2⟩ := andThen_ok_iff.mp h
    cases h2
    exact ⟨(he v).2, by rw [decodeIndexed_ok h1, (he v).1]; simp⟩
  | imm16 f | extended f | rel16 f =>
    obtain ⟨v, l, h1, h2⟩ := andThen_ok_iff.mp h
    cases h2
    exact ⟨(he v).2, by rw [takeWord_ok h1, (he v).1]; simp⟩
  | _ f =>
    obtain ⟨v, l, h1, h2⟩ := andThen_ok_iff.mp h
    cases h2
    exact ⟨(he v).2, by rw [takeByte_ok h1, (he v).1]; simp⟩

/-- A row found in a table is in it, under the opcode looked up. -/
theorem lookupShape_some {table : List (Nat × Shape)} {op : Nat} {sh : Shape} (h : lookupShape table op = some sh) :
    (op, sh) ∈ table := by
  induction table with
  | nil => cases h
  | cons row rest ih =>
    obtain ⟨k, s⟩ := row
    unfold lookupShape at h
    split at h
    · rename_i e
      cases h
      subst e
      exact List.mem_cons_self
    · exact List.mem_cons_of_mem _ (ih h)

/-- An opcode that no row of a table has. -/
theorem lookupShape_none {table : List (Nat × Shape)} {op : Nat} :
    lookupShape table op = none ↔ op ∉ table.map Prod.fst := by
  induction table with
  | nil => simp [lookupShape]
  | cons row rest ih =>
    obtain ⟨k, s⟩ := row
    unfold lookupShape
    split
    · rename_i e
      simp [e]
    · rename_i e
      rw [ih, List.map_cons, List.mem_cons, not_or]
      exact ⟨fun h => ⟨Ne.symm e, h⟩, fun h => h.2⟩

theorem page10_keys : page10Table.map Prod.fst = assignedPage10 := rfl

theorem page11_keys : page11Table.map Prod.fst = assignedPage11 := rfl

/-- Every row of the primary page agrees with the encoder. -/
theorem primary_encodes : ∀ row ∈ primaryTable, row.2.Encodes [BitVec.ofNat 8 row.1] := by
  unfold primaryTable
  simp only [List.forall_mem_append]
  refine ⟨⟨⟨⟨⟨⟨⟨⟨⟨⟨⟨⟨⟨⟨⟨?_, ?_⟩, ?_⟩, ?_⟩, ?_⟩, ?_⟩, ?_⟩, ?_⟩, ?_⟩, ?_⟩, ?_⟩, ?_⟩, ?_⟩, ?_⟩, ?_⟩, ?_⟩
  all_goals
    simp only [rows00, rows10, rows20, rows30, rows40, rows50, rows60, rows70, rows80, rows90, rowsA0, rowsB0, rowsC0,
      rowsD0, rowsE0, rowsF0, List.forall_mem_cons, List.not_mem_nil, false_implies, implies_true, and_true]
    (repeat' apply And.intro) <;>
      first
      | rfl
      | exact fun _ => ⟨rfl, rfl⟩
      | exact fun _ _ => ⟨rfl, fun h => by simp [Instr.wf, h]⟩

/-- Every row of prefix 0x10 agrees with the encoder. -/
theorem page10_encodes : ∀ row ∈ page10Table, row.2.Encodes [0x10#8, BitVec.ofNat 8 row.1] := by
  simp only [page10Table, page10Branches, page10Others, List.forall_mem_append, List.forall_mem_cons, List.not_mem_nil,
    false_implies, implies_true, and_true]
  (repeat' apply And.intro) <;> first | rfl | exact fun _ => ⟨rfl, rfl⟩

/-- Every row of prefix 0x11 agrees with the encoder. -/
theorem page11_encodes : ∀ row ∈ page11Table, row.2.Encodes [0x11#8, BitVec.ofNat 8 row.1] := by
  simp only [page11Table, List.forall_mem_cons, List.not_mem_nil, false_implies, implies_true, and_true]
  (repeat' apply And.intro) <;> first | rfl | exact fun _ => ⟨rfl, rfl⟩

/-! ### More bytes, and enough bytes -/

/-- Bytes that follow do not change what a reader has decided. -/
structure Extends {α : Type} (p : List Byte → Parsed α) : Prop where
  ok : ∀ {l rest : List Byte} {v : α} (m : List Byte), p l = .ok v rest → p (l ++ m) = .ok v (rest ++ m)
  bad : ∀ {l : List Byte} {e : DecodeError} (m : List Byte), p l = .bad e → p (l ++ m) = .bad e

theorem Extends.andThen {α β : Type} {p : List Byte → Parsed α} {f : α → List Byte → Parsed β} (hp : Extends p)
    (hf : ∀ v, Extends (f v)) : Extends (fun l => (p l).andThen f) := by
  constructor
  · intro l rest w m h
    obtain ⟨v, l', h1, h2⟩ := andThen_ok_iff.mp h
    show (p (l ++ m)).andThen f = _
    rw [hp.ok m h1]
    exact (hf v).ok m h2
  · intro l e m h
    show (p (l ++ m)).andThen f = _
    cases hl : p l with
    | more => simp only [hl, andThen_more, reduceCtorEq] at h
    | bad e' =>
      simp only [hl, andThen_bad, Parsed.bad.injEq] at h
      rw [hp.bad m hl, andThen_bad, h]
    | ok v l' =>
      simp only [hl, andThen_ok] at h
      rw [hp.ok m hl]
      exact (hf v).bad m h

theorem extends_ok {α β : Type} (g : β → α) : ∀ v, Extends (fun l => Parsed.ok (g v) l) := by
  intro v
  constructor
  · intro l rest w m h
    cases h
    rfl
  · intro l e m h
    cases h

theorem extends_bad {α : Type} (e : DecodeError) : Extends (fun _ => (Parsed.bad e : Parsed α)) :=
  ⟨fun _ h => (by cases h), fun _ h => h⟩

theorem takeByte_extends : Extends takeByte := by
  constructor
  · intro l rest v m h
    rw [takeByte_ok h]
    rfl
  · intro l e m h
    cases l <;> cases h

theorem takeWord_extends : Extends takeWord :=
  takeByte_extends.andThen fun _ => takeByte_extends.andThen fun _ => extends_ok id _

theorem decodeMode_extends (pb : Byte) (r : IdxReg) (i : Bool) (m : Nat) : Extends (decodeMode pb r i m) := by
  unfold decodeMode
  split
  case h_1 => cases i; exact extends_ok id _; exact extends_bad _
  case h_3 => cases i; exact extends_ok id _; exact extends_bad _
  case h_8 => exact takeByte_extends.andThen (extends_ok _)
  case h_9 => exact takeWord_extends.andThen (extends_ok _)
  case h_11 => exact takeByte_extends.andThen (extends_ok _)
  case h_12 => exact takeWord_extends.andThen (extends_ok _)
  case h_13 =>
    cases i && decide (r = .x)
    · exact extends_bad _
    · exact takeWord_extends.andThen (extends_ok _)
  case h_14 => exact extends_bad _
  all_goals exact extends_ok id _

theorem decodeIndexed_extends : Extends decodeIndexed := by
  refine takeByte_extends.andThen fun pb => ?_
  cases pb.msb
  · exact extends_ok id _
  · exact decodeMode_extends _ _ _ _

theorem decodeRegPair_extends (f : RegCode → RegCode → Instr) : Extends (decodeRegPair f) := by
  refine takeByte_extends.andThen fun pb => ?_
  split
  · rename_i r1 r2 _ _
    cases Machine.isWide r1 == Machine.isWide r2
    · exact extends_bad _
    · exact extends_ok id _
  · exact extends_bad _

theorem decodeShape_extends (sh : Shape) : Extends (decodeShape sh) := by
  cases sh with
  | inh i => exact extends_ok id _
  | regPair f => exact decodeRegPair_extends f
  | indexed f => exact decodeIndexed_extends.andThen (extends_ok f)
  | imm16 f | extended f | rel16 f => exact takeWord_extends.andThen (extends_ok f)
  | _ f => exact takeByte_extends.andThen (extends_ok f)

theorem decodePage_extends (table : List (Nat × Shape)) (other : Byte → Instr) : Extends (decodePage table other) := by
  refine takeByte_extends.andThen fun sub => ?_
  cases lookupShape table sub.toNat with
  | some sh => exact decodeShape_extends sh
  | none => exact extends_ok id _

/-- Bytes after an instruction, or after bytes that are refused, change nothing. -/
theorem decode_extends : Extends decode := by
  refine takeByte_extends.andThen fun op => ?_
  by_cases h : op = 0x10#8
  · simp only [h, if_true]
    exact decodePage_extends _ _
  · by_cases h' : op = 0x11#8
    · simp only [h', if_true]
      exact decodePage_extends _ _
    · simp only [h, h', if_false]
      cases lookupShape primaryTable op.toNat with
      | some sh => exact decodeShape_extends sh
      | none => exact extends_bad _

/-- A reader decides within `n` bytes. -/
structure Within {α : Type} (n : Nat) (p : List Byte → Parsed α) : Prop where
  more : ∀ {l : List Byte}, p l = .more → l.length < n
  ok : ∀ {l rest : List Byte} {v : α}, p l = .ok v rest → l.length ≤ rest.length + n

theorem Within.mono {α : Type} {n m : Nat} {p : List Byte → Parsed α} (h : Within n p) (hn : n ≤ m) : Within m p :=
  ⟨fun e => (h.more e).trans_le hn, fun e => (h.ok e).trans (Nat.add_le_add_left hn _)⟩

theorem Within.andThen {α β : Type} {a b : Nat} {p : List Byte → Parsed α} {f : α → List Byte → Parsed β}
    (hp : Within a p) (hf : ∀ v, Within b (f v)) : Within (a + b) (fun l => (p l).andThen f) := by
  constructor
  · intro l h
    cases hl : p l with
    | more => exact (hp.more hl).trans_le (Nat.le_add_right a b)
    | bad e => simp only [hl, andThen_bad, reduceCtorEq] at h
    | ok v l' =>
      simp only [hl, andThen_ok] at h
      have h1 := hp.ok hl
      have h2 := (hf v).more h
      omega
  · intro l rest w h
    obtain ⟨v, l', h1, h2⟩ := andThen_ok_iff.mp h
    have h3 := hp.ok h1
    have h4 := (hf v).ok h2
    omega

theorem within_ok {α β : Type} (g : β → α) : ∀ v, Within 0 (fun l => Parsed.ok (g v) l) :=
  fun _ => ⟨fun h => (by cases h), fun h => (by cases h; exact Nat.le_refl _)⟩

theorem within_bad {α : Type} (e : DecodeError) : Within 0 (fun _ => (Parsed.bad e : Parsed α)) :=
  ⟨fun h => (by cases h), fun h => (by cases h)⟩

theorem takeByte_within : Within 1 takeByte := by
  constructor
  · intro l h
    cases l with
    | nil => exact Nat.one_pos
    | cons v rest => cases h
  · intro l rest v h
    rw [takeByte_ok h]
    exact Nat.le_refl _

theorem takeWord_within : Within 2 takeWord :=
  takeByte_within.andThen fun _ => takeByte_within.andThen fun _ => within_ok id _

theorem decodeMode_within (pb : Byte) (r : IdxReg) (i : Bool) (m : Nat) : Within 2 (decodeMode pb r i m) := by
  unfold decodeMode
  split
  case h_1 => cases i; exact (within_ok id _).mono (by omega); exact (within_bad _).mono (by omega)
  case h_3 => cases i; exact (within_ok id _).mono (by omega); exact (within_bad _).mono (by omega)
  case h_8 => exact (takeByte_within.andThen (within_ok _)).mono (by omega)
  case h_9 => exact takeWord_within.andThen (within_ok _)
  case h_11 => exact (takeByte_within.andThen (within_ok _)).mono (by omega)
  case h_12 => exact takeWord_within.andThen (within_ok _)
  case h_13 =>
    cases i && decide (r = .x)
    · exact (within_bad _).mono (by omega)
    · exact takeWord_within.andThen (within_ok _)
  case h_14 => exact (within_bad _).mono (by omega)
  all_goals exact (within_ok id _).mono (by omega)

theorem decodeIndexed_within : Within 3 decodeIndexed := by
  refine (takeByte_within.andThen (b := 2) fun pb => ?_).mono (by omega)
  cases pb.msb
  · exact (within_ok id _).mono (by omega)
  · exact decodeMode_within _ _ _ _

theorem decodeRegPair_within (f : RegCode → RegCode → Instr) : Within 1 (decodeRegPair f) := by
  refine takeByte_within.andThen (b := 0) fun pb => ?_
  split
  · rename_i r1 r2 _ _
    cases Machine.isWide r1 == Machine.isWide r2
    · exact within_bad _
    · exact within_ok id _
  · exact within_bad _

theorem decodeShape_within (sh : Shape) : Within 3 (decodeShape sh) := by
  cases sh with
  | inh i => exact (within_ok id _).mono (by omega)
  | regPair f => exact (decodeRegPair_within f).mono (by omega)
  | indexed f => exact decodeIndexed_within.andThen (within_ok f)
  | imm16 f | extended f | rel16 f => exact (takeWord_within.andThen (within_ok f)).mono (by omega)
  | _ f => exact (takeByte_within.andThen (within_ok f)).mono (by omega)

theorem decodePage_within (table : List (Nat × Shape)) (other : Byte → Instr) : Within 4 (decodePage table other) := by
  refine (takeByte_within.andThen (b := 3) fun sub => ?_).mono (by omega)
  cases lookupShape table sub.toNat with
  | some sh => exact decodeShape_within sh
  | none => exact (within_ok id _).mono (by omega)

/-- Five bytes decide an instruction (30_encoding R112). -/
theorem decode_within : Within 5 decode := by
  refine (takeByte_within.andThen (b := 4) fun op => ?_).mono (by omega)
  by_cases h : op = 0x10#8
  · simp only [h, if_true]
    exact decodePage_within _ _
  · by_cases h' : op = 0x11#8
    · simp only [h', if_true]
      exact decodePage_within _ _
    · simp only [h, h', if_false]
      cases lookupShape primaryTable op.toNat with
      | some sh => exact (decodeShape_within sh).mono (by omega)
      | none => exact (within_bad _).mono (by omega)

end Sys2Proof
end

