-- ==== Sys2Proof/Laws/Flags.lean ====
section
/-! SUPPORT. Reading a flag after writing a flag, and what writing the arithmetic flags can do. -/

namespace Sys2Proof.Machine

/-! ### One flag after another -/

@[simp] theorem ccC_putC (bit : Bool) (cc : Byte) : ccC (putC bit cc) = bit := by
  cases bit <;> simp [ccC, putC, putMask]
@[simp] theorem ccV_putC (bit : Bool) (cc : Byte) : ccV (putC bit cc) = ccV cc := by
  cases bit <;> simp [ccV, putC, putMask]
@[simp] theorem ccZ_putC (bit : Bool) (cc : Byte) : ccZ (putC bit cc) = ccZ cc := by
  cases bit <;> simp [ccZ, putC, putMask]
@[simp] theorem ccN_putC (bit : Bool) (cc : Byte) : ccN (putC bit cc) = ccN cc := by
  cases bit <;> simp [ccN, putC, putMask]
@[simp] theorem ccI_putC (bit : Bool) (cc : Byte) : ccI (putC bit cc) = ccI cc := by
  cases bit <;> simp [ccI, putC, putMask]
@[simp] theorem ccH_putC (bit : Bool) (cc : Byte) : ccH (putC bit cc) = ccH cc := by
  cases bit <;> simp [ccH, putC, putMask]
@[simp] theorem ccF_putC (bit : Bool) (cc : Byte) : ccF (putC bit cc) = ccF cc := by
  cases bit <;> simp [ccF, putC, putMask]
@[simp] theorem ccE_putC (bit : Bool) (cc : Byte) : ccE (putC bit cc) = ccE cc := by
  cases bit <;> simp [ccE, putC, putMask]
@[simp] theorem ccC_putV (bit : Bool) (cc : Byte) : ccC (putV bit cc) = ccC cc := by
  cases bit <;> simp [ccC, putV, putMask]
@[simp] theorem ccV_putV (bit : Bool) (cc : Byte) : ccV (putV bit cc) = bit := by
  cases bit <;> simp [ccV, putV, putMask]
@[simp] theorem ccZ_putV (bit : Bool) (cc : Byte) : ccZ (putV bit cc) = ccZ cc := by
  cases bit <;> simp [ccZ, putV, putMask]
@[simp] theorem ccN_putV (bit : Bool) (cc : Byte) : ccN (putV bit cc) = ccN cc := by
  cases bit <;> simp [ccN, putV, putMask]
@[simp] theorem ccI_putV (bit : Bool) (cc : Byte) : ccI (putV bit cc) = ccI cc := by
  cases bit <;> simp [ccI, putV, putMask]
@[simp] theorem ccH_putV (bit : Bool) (cc : Byte) : ccH (putV bit cc) = ccH cc := by
  cases bit <;> simp [ccH, putV, putMask]
@[simp] theorem ccF_putV (bit : Bool) (cc : Byte) : ccF (putV bit cc) = ccF cc := by
  cases bit <;> simp [ccF, putV, putMask]
@[simp] theorem ccE_putV (bit : Bool) (cc : Byte) : ccE (putV bit cc) = ccE cc := by
  cases bit <;> simp [ccE, putV, putMask]
@[simp] theorem ccC_putZ (bit : Bool) (cc : Byte) : ccC (putZ bit cc) = ccC cc := by
  cases bit <;> simp [ccC, putZ, putMask]
@[simp] theorem ccV_putZ (bit : Bool) (cc : Byte) : ccV (putZ bit cc) = ccV cc := by
  cases bit <;> simp [ccV, putZ, putMask]
@[simp] theorem ccZ_putZ (bit : Bool) (cc : Byte) : ccZ (putZ bit cc) = bit := by
  cases bit <;> simp [ccZ, putZ, putMask]
@[simp] theorem ccN_putZ (bit : Bool) (cc : Byte) : ccN (putZ bit cc) = ccN cc := by
  cases bit <;> simp [ccN, putZ, putMask]
@[simp] theorem ccI_putZ (bit : Bool) (cc : Byte) : ccI (putZ bit cc) = ccI cc := by
  cases bit <;> simp [ccI, putZ, putMask]
@[simp] theorem ccH_putZ (bit : Bool) (cc : Byte) : ccH (putZ bit cc) = ccH cc := by
  cases bit <;> simp [ccH, putZ, putMask]
@[simp] theorem ccF_putZ (bit : Bool) (cc : Byte) : ccF (putZ bit cc) = ccF cc := by
  cases bit <;> simp [ccF, putZ, putMask]
@[simp] theorem ccE_putZ (bit : Bool) (cc : Byte) : ccE (putZ bit cc) = ccE cc := by
  cases bit <;> simp [ccE, putZ, putMask]
@[simp] theorem ccC_putN (bit : Bool) (cc : Byte) : ccC (putN bit cc) = ccC cc := by
  cases bit <;> simp [ccC, putN, putMask]
@[simp] theorem ccV_putN (bit : Bool) (cc : Byte) : ccV (putN bit cc) = ccV cc := by
  cases bit <;> simp [ccV, putN, putMask]
@[simp] theorem ccZ_putN (bit : Bool) (cc : Byte) : ccZ (putN bit cc) = ccZ cc := by
  cases bit <;> simp [ccZ, putN, putMask]
@[simp] theorem ccN_putN (bit : Bool) (cc : Byte) : ccN (putN bit cc) = bit := by
  cases bit <;> simp [ccN, putN, putMask]
@[simp] theorem ccI_putN (bit : Bool) (cc : Byte) : ccI (putN bit cc) = ccI cc := by
  cases bit <;> simp [ccI, putN, putMask]
@[simp] theorem ccH_putN (bit : Bool) (cc : Byte) : ccH (putN bit cc) = ccH cc := by
  cases bit <;> simp [ccH, putN, putMask]
@[simp] theorem ccF_putN (bit : Bool) (cc : Byte) : ccF (putN bit cc) = ccF cc := by
  cases bit <;> simp [ccF, putN, putMask]
@[simp] theorem ccE_putN (bit : Bool) (cc : Byte) : ccE (putN bit cc) = ccE cc := by
  cases bit <;> simp [ccE, putN, putMask]
@[simp] theorem ccC_putI (bit : Bool) (cc : Byte) : ccC (putI bit cc) = ccC cc := by
  cases bit <;> simp [ccC, putI, putMask]
@[simp] theorem ccV_putI (bit : Bool) (cc : Byte) : ccV (putI bit cc) = ccV cc := by
  cases bit <;> simp [ccV, putI, putMask]
@[simp] theorem ccZ_putI (bit : Bool) (cc : Byte) : ccZ (putI bit cc) = ccZ cc := by
  cases bit <;> simp [ccZ, putI, putMask]
@[simp] theorem ccN_putI (bit : Bool) (cc : Byte) : ccN (putI bit cc) = ccN cc := by
  cases bit <;> simp [ccN, putI, putMask]
@[simp] theorem ccI_putI (bit : Bool) (cc : Byte) : ccI (putI bit cc) = bit := by
  cases bit <;> simp [ccI, putI, putMask]
@[simp] theorem ccH_putI (bit : Bool) (cc : Byte) : ccH (putI bit cc) = ccH cc := by
  cases bit <;> simp [ccH, putI, putMask]
@[simp] theorem ccF_putI (bit : Bool) (cc : Byte) : ccF (putI bit cc) = ccF cc := by
  cases bit <;> simp [ccF, putI, putMask]
@[simp] theorem ccE_putI (bit : Bool) (cc : Byte) : ccE (putI bit cc) = ccE cc := by
  cases bit <;> simp [ccE, putI, putMask]
@[simp] theorem ccC_putH (bit : Bool) (cc : Byte) : ccC (putH bit cc) = ccC cc := by
  cases bit <;> simp [ccC, putH, putMask]
@[simp] theorem ccV_putH (bit : Bool) (cc : Byte) : ccV (putH bit cc) = ccV cc := by
  cases bit <;> simp [ccV, putH, putMask]
@[simp] theorem ccZ_putH (bit : Bool) (cc : Byte) : ccZ (putH bit cc) = ccZ cc := by
  cases bit <;> simp [ccZ, putH, putMask]
@[simp] theorem ccN_putH (bit : Bool) (cc : Byte) : ccN (putH bit cc) = ccN cc := by
  cases bit <;> simp [ccN, putH, putMask]
@[simp] theorem ccI_putH (bit : Bool) (cc : Byte) : ccI (putH bit cc) = ccI cc := by
  cases bit <;> simp [ccI, putH, putMask]
@[simp] theorem ccH_putH (bit : Bool) (cc : Byte) : ccH (putH bit cc) = bit := by
  cases bit <;> simp [ccH, putH, putMask]
@[simp] theorem ccF_putH (bit : Bool) (cc : Byte) : ccF (putH bit cc) = ccF cc := by
  cases bit <;> simp [ccF, putH, putMask]
@[simp] theorem ccE_putH (bit : Bool) (cc : Byte) : ccE (putH bit cc) = ccE cc := by
  cases bit <;> simp [ccE, putH, putMask]
@[simp] theorem ccC_putF (bit : Bool) (cc : Byte) : ccC (putF bit cc) = ccC cc := by
  cases bit <;> simp [ccC, putF, putMask]
@[simp] theorem ccV_putF (bit : Bool) (cc : Byte) : ccV (putF bit cc) = ccV cc := by
  cases bit <;> simp [ccV, putF, putMask]
@[simp] theorem ccZ_putF (bit : Bool) (cc : Byte) : ccZ (putF bit cc) = ccZ cc := by
  cases bit <;> simp [ccZ, putF, putMask]
@[simp] theorem ccN_putF (bit : Bool) (cc : Byte) : ccN (putF bit cc) = ccN cc := by
  cases bit <;> simp [ccN, putF, putMask]
@[simp] theorem ccI_putF (bit : Bool) (cc : Byte) : ccI (putF bit cc) = ccI cc := by
  cases bit <;> simp [ccI, putF, putMask]
@[simp] theorem ccH_putF (bit : Bool) (cc : Byte) : ccH (putF bit cc) = ccH cc := by
  cases bit <;> simp [ccH, putF, putMask]
@[simp] theorem ccF_putF (bit : Bool) (cc : Byte) : ccF (putF bit cc) = bit := by
  cases bit <;> simp [ccF, putF, putMask]
@[simp] theorem ccE_putF (bit : Bool) (cc : Byte) : ccE (putF bit cc) = ccE cc := by
  cases bit <;> simp [ccE, putF, putMask]
@[simp] theorem ccC_putE (bit : Bool) (cc : Byte) : ccC (putE bit cc) = ccC cc := by
  cases bit <;> simp [ccC, putE, putMask]
@[simp] theorem ccV_putE (bit : Bool) (cc : Byte) : ccV (putE bit cc) = ccV cc := by
  cases bit <;> simp [ccV, putE, putMask]
@[simp] theorem ccZ_putE (bit : Bool) (cc : Byte) : ccZ (putE bit cc) = ccZ cc := by
  cases bit <;> simp [ccZ, putE, putMask]
@[simp] theorem ccN_putE (bit : Bool) (cc : Byte) : ccN (putE bit cc) = ccN cc := by
  cases bit <;> simp [ccN, putE, putMask]
@[simp] theorem ccI_putE (bit : Bool) (cc : Byte) : ccI (putE bit cc) = ccI cc := by
  cases bit <;> simp [ccI, putE, putMask]
@[simp] theorem ccH_putE (bit : Bool) (cc : Byte) : ccH (putE bit cc) = ccH cc := by
  cases bit <;> simp [ccH, putE, putMask]
@[simp] theorem ccF_putE (bit : Bool) (cc : Byte) : ccF (putE bit cc) = ccF cc := by
  cases bit <;> simp [ccF, putE, putMask]
@[simp] theorem ccE_putE (bit : Bool) (cc : Byte) : ccE (putE bit cc) = bit := by
  cases bit <;> simp [ccE, putE, putMask]

/-- A byte of flags is its eight flags. -/
theorem cc_ext {x y : Byte} (h : ccE x = ccE y ∧ ccF x = ccF y ∧ ccH x = ccH y ∧ ccI x = ccI y ∧ ccN x = ccN y ∧
    ccZ x = ccZ y ∧ ccV x = ccV y ∧ ccC x = ccC y) : x = y := by
  obtain ⟨h7, h6, h5, h4, h3, h2, h1, h0⟩ := h
  apply BitVec.eq_of_getLsbD_eq
  intro i hi
  match i, hi with
  | 0, _ => exact h0
  | 1, _ => exact h1
  | 2, _ => exact h2
  | 3, _ => exact h3
  | 4, _ => exact h4
  | 5, _ => exact h5
  | 6, _ => exact h6
  | 7, _ => exact h7

/-! ### `putFlags` -/

/-- Whether an effect leaves the flag as it was. -/
def FlagEffect.keeps (e : FlagEffect) : Bool := e == .keep

/-- Whether an effect draws a free value. -/
def FlagEffect.draws (e : FlagEffect) : Bool := e == .undef

/-- How many free values the effects draw. -/
def FlagEffects.draws (f : FlagEffects) : Nat :=
  f.h.draws.toNat + f.n.draws.toNat + f.z.draws.toNat + f.v.draws.toNat + f.c.draws.toNat

theorem flagValue_state (e : FlagEffect) (old : Bool) (s : State) :
    (flagValue e old s).2 = s.putDraws (s.draws + e.draws.toNat) := by
  cases e <;> rfl

@[simp] theorem flagValue_keep (old : Bool) (s : State) : (flagValue .keep old s) = (old, s) := rfl
@[simp] theorem flagValue_put (bit old : Bool) (s : State) : (flagValue (.put bit) old s) = (bit, s) := rfl

/-- Writing the flags changes CC and the count of free values, and nothing else. -/
theorem putFlags_eq (f : FlagEffects) (s : State) :
    putFlags f s = (s.putDraws (s.draws + f.draws)).putCc (putFlags f s).cc := by
  simp only [putFlags, flagValue_state, FlagEffects.draws, State.putCc, State.putDraws, Nat.add_assoc]

@[simp] theorem putFlags_a (f : FlagEffects) (s : State) : (putFlags f s).a = s.a := by
  rw [putFlags_eq]; rfl
@[simp] theorem putFlags_b (f : FlagEffects) (s : State) : (putFlags f s).b = s.b := by
  rw [putFlags_eq]; rfl
@[simp] theorem putFlags_x (f : FlagEffects) (s : State) : (putFlags f s).x = s.x := by
  rw [putFlags_eq]; rfl
@[simp] theorem putFlags_y (f : FlagEffects) (s : State) : (putFlags f s).y = s.y := by
  rw [putFlags_eq]; rfl
@[simp] theorem putFlags_u (f : FlagEffects) (s : State) : (putFlags f s).u = s.u := by
  rw [putFlags_eq]; rfl
@[simp] theorem putFlags_s (f : FlagEffects) (s : State) : (putFlags f s).s = s.s := by
  rw [putFlags_eq]; rfl
@[simp] theorem putFlags_pc (f : FlagEffects) (s : State) : (putFlags f s).pc = s.pc := by
  rw [putFlags_eq]; rfl
@[simp] theorem putFlags_dp (f : FlagEffects) (s : State) : (putFlags f s).dp = s.dp := by
  rw [putFlags_eq]; rfl
@[simp] theorem putFlags_wait (f : FlagEffects) (s : State) : (putFlags f s).wait = s.wait := by
  rw [putFlags_eq]; rfl
@[simp] theorem putFlags_nmiArmed (f : FlagEffects) (s : State) : (putFlags f s).nmiArmed = s.nmiArmed := by
  rw [putFlags_eq]; rfl
@[simp] theorem putFlags_nmiPending (f : FlagEffects) (s : State) : (putFlags f s).nmiPending = s.nmiPending := by
  rw [putFlags_eq]; rfl
@[simp] theorem putFlags_firqLine (f : FlagEffects) (s : State) : (putFlags f s).firqLine = s.firqLine := by
  rw [putFlags_eq]; rfl
@[simp] theorem putFlags_irqExt (f : FlagEffects) (s : State) : (putFlags f s).irqExt = s.irqExt := by
  rw [putFlags_eq]; rfl
@[simp] theorem putFlags_resetLine (f : FlagEffects) (s : State) : (putFlags f s).resetLine = s.resetLine := by
  rw [putFlags_eq]; rfl
@[simp] theorem putFlags_mem (f : FlagEffects) (s : State) : (putFlags f s).mem = s.mem := by
  rw [putFlags_eq]; rfl
@[simp] theorem putFlags_via (f : FlagEffects) (s : State) : (putFlags f s).via = s.via := by
  rw [putFlags_eq]; rfl
@[simp] theorem putFlags_params (f : FlagEffects) (s : State) : (putFlags f s).params = s.params := by
  rw [putFlags_eq]; rfl
@[simp] theorem putFlags_inputs (f : FlagEffects) (s : State) : (putFlags f s).inputs = s.inputs := by
  rw [putFlags_eq]; rfl
@[simp] theorem putFlags_steps (f : FlagEffects) (s : State) : (putFlags f s).steps = s.steps := by
  rw [putFlags_eq]; rfl
@[simp] theorem putFlags_draws (f : FlagEffects) (s : State) : (putFlags f s).draws = s.draws + f.draws := by
  rw [putFlags_eq]; rfl
@[simp] theorem putFlags_ccE (f : FlagEffects) (s : State) : ccE (putFlags f s).cc = ccE s.cc := by
  simp [putFlags]
@[simp] theorem putFlags_ccF (f : FlagEffects) (s : State) : ccF (putFlags f s).cc = ccF s.cc := by
  simp [putFlags]
@[simp] theorem putFlags_ccI (f : FlagEffects) (s : State) : ccI (putFlags f s).cc = ccI s.cc := by
  simp [putFlags]
theorem putFlags_ccH_put {f : FlagEffects} {s : State} {bit : Bool} (h : f.h = .put bit) :
    ccH (putFlags f s).cc = bit := by
  simp [putFlags, h]
theorem putFlags_ccH_keep {f : FlagEffects} {s : State} (h : f.h = .keep) : ccH (putFlags f s).cc = ccH s.cc := by
  simp [putFlags, h]
theorem putFlags_ccN_put {f : FlagEffects} {s : State} {bit : Bool} (h : f.n = .put bit) :
    ccN (putFlags f s).cc = bit := by
  simp [putFlags, h]
theorem putFlags_ccN_keep {f : FlagEffects} {s : State} (h : f.n = .keep) : ccN (putFlags f s).cc = ccN s.cc := by
  simp [putFlags, h]
theorem putFlags_ccZ_put {f : FlagEffects} {s : State} {bit : Bool} (h : f.z = .put bit) :
    ccZ (putFlags f s).cc = bit := by
  simp [putFlags, h]
theorem putFlags_ccZ_keep {f : FlagEffects} {s : State} (h : f.z = .keep) : ccZ (putFlags f s).cc = ccZ s.cc := by
  simp [putFlags, h]
theorem putFlags_ccV_put {f : FlagEffects} {s : State} {bit : Bool} (h : f.v = .put bit) :
    ccV (putFlags f s).cc = bit := by
  simp [putFlags, h]
theorem putFlags_ccV_keep {f : FlagEffects} {s : State} (h : f.v = .keep) : ccV (putFlags f s).cc = ccV s.cc := by
  simp [putFlags, h]
theorem putFlags_ccC_put {f : FlagEffects} {s : State} {bit : Bool} (h : f.c = .put bit) :
    ccC (putFlags f s).cc = bit := by
  simp [putFlags, h]
theorem putFlags_ccC_keep {f : FlagEffects} {s : State} (h : f.c = .keep) : ccC (putFlags f s).cc = ccC s.cc := by
  simp [putFlags, h]

end Sys2Proof.Machine
end

