-- ==== Sys2Proof/Laws/Keeps.lean ====
section
/-! SUPPORT. What every operation keeps, whatever it is given: the parameters, the canonical form of memory, the bytes at
addresses that are not RAM, and the range of the shift counter. -/

namespace Sys2Proof.Machine

/-- From `s` to `t` the parameters are the same, a canonical memory stays canonical, a byte that is not RAM reads as before,
and a shift counter in its range stays there. -/
structure Keeps (s t : State) : Prop where
  params : t.params = s.params
  wf : Memory.wf s.mem = true → Memory.wf t.mem = true
  bytes : ∀ a : Word, isRam s.params a = false → Memory.read t.mem a.toNat = Memory.read s.mem a.toNat
  count : s.via.srCount ≤ 8 → t.via.srCount ≤ 8

theorem Keeps.refl (s : State) : Keeps s s := ⟨rfl, id, fun _ _ => rfl, id⟩

theorem Keeps.trans {s t u : State} (h : Keeps s t) (g : Keeps t u) : Keeps s u :=
  ⟨g.params.trans h.params, g.wf ∘ h.wf,
    fun a ha => (g.bytes a (by rw [h.params]; exact ha)).trans (h.bytes a ha), g.count ∘ h.count⟩

/-- An update that leaves the parameters, memory and the VIA alone keeps everything. -/
theorem Keeps.of_eq {s t : State} (hp : t.params = s.params) (hm : t.mem = s.mem) (hv : t.via = s.via) : Keeps s t :=
  ⟨hp, by rw [hm]; exact id, fun _ _ => by rw [hm], by rw [hv]; exact id⟩

/-! ### The VIA -/

theorem viaClearIf_srCount (p : Bool) (f : ViaFlag) (v : Via) : (viaClearIf p f v).srCount = v.srCount := by
  cases p <;> rfl

theorem viaAccessA_srCount (v : Via) : (viaAccessA v).srCount = v.srCount := by
  unfold viaAccessA
  simp only
  split <;> simp [viaClearIf_srCount, viaClear]

theorem viaAccessB_srCount (v : Via) : (viaAccessB v).srCount = v.srCount := by
  simp [viaAccessB, viaClearIf_srCount, viaClear]

theorem viaHandshakeB_srCount (v : Via) : (viaHandshakeB v).srCount = v.srCount := by
  unfold viaHandshakeB
  split <;> rfl

theorem viaAccessSr_srCount {v : Via} (h : v.srCount ≤ 8) : (viaAccessSr v).srCount ≤ 8 := by
  unfold viaAccessSr
  simp only
  split
  · exact h
  · exact Nat.le_refl 8

theorem viaRead_srCount (c : TimerClear) (r : BitVec 4) {v : Via} (h : v.srCount ≤ 8) :
    (viaRead c r v).2.srCount ≤ 8 := by
  unfold viaRead
  split <;>
    first
    | exact h
    | exact viaAccessSr_srCount h
    | (simp only [viaAccessA_srCount, viaAccessB_srCount, viaClearIf_srCount]; exact h)

theorem viaWritePcr_srCount (d : Byte) (v : Via) : (viaWritePcr d v).srCount = v.srCount := by
  unfold viaWritePcr
  simp only
  split <;> split <;> (try split) <;> (try split) <;> rfl

theorem viaWrite_srCount (r : BitVec 4) (d : Byte) {v : Via} (h : v.srCount ≤ 8) : (viaWrite r d v).srCount ≤ 8 := by
  unfold viaWrite
  split
  · rw [viaHandshakeB_srCount, viaAccessB_srCount]; exact h
  · rw [viaAccessA_srCount]; exact h
  · exact h
  · exact h
  · exact h
  · unfold viaStartTimer1; simp only; split <;> exact h
  · exact h
  · exact h
  · exact h
  · exact h
  · exact viaAccessSr_srCount h
  · exact h
  · rw [viaWritePcr_srCount]; exact h
  · exact h
  · unfold viaWriteIer; simp only; split <;> exact h
  · exact h

theorem viaShiftBit_srCount (v : Via) : (viaShiftBit v).srCount = v.srCount := by
  unfold viaShiftBit
  split <;> rfl

theorem viaShift_srCount {v : Via} (h : v.srCount ≤ 8) : (viaShift v).srCount ≤ 8 := by
  unfold viaShift
  simp only
  split
  · rw [viaShiftBit_srCount]; exact h
  · split
    · show v.srCount - 1 ≤ 8; omega
    · show v.srCount - 1 ≤ 8; omega

theorem viaShiftClock_srCount {v : Via} (h : v.srCount ≤ 8) : (viaShiftClock v).srCount ≤ 8 := by
  unfold viaShiftClock
  split
  · split
    · exact viaShift_srCount (v := { v with srPhase := false }) h
    · exact h
  · exact h

theorem viaExternalShift_srCount {v : Via} (h : v.srCount ≤ 8) : (viaExternalShift v).srCount ≤ 8 := by
  unfold viaExternalShift
  split
  · exact viaShift_srCount h
  · exact h

theorem viaTimer1_srCount (v : Via) : (viaTimer1 v).srCount = v.srCount := by
  unfold viaTimer1 viaRaise
  simp only
  repeat' split
  all_goals rfl

theorem viaTimer2Out_srCount (v : Via) : (viaTimer2Out v).srCount = v.srCount := by
  unfold viaTimer2Out
  split <;> rfl

theorem viaTimer2_srCount {v : Via} (h : v.srCount ≤ 8) : (viaTimer2 v).srCount ≤ 8 := by
  unfold viaTimer2
  simp only
  split
  · apply viaShiftClock_srCount
    show (if v.t2c = 0 then viaTimer2Out v else v).srCount ≤ 8
    split
    · rw [viaTimer2Out_srCount]; exact h
    · exact h
  · split
    · rw [viaTimer2Out_srCount]; exact h
    · exact h

theorem viaEndPulses_srCount (v : Via) : (viaEndPulses v).srCount = v.srCount := by
  unfold viaEndPulses
  simp only
  split <;> split <;> rfl

theorem viaTick_srCount {v : Via} (h : v.srCount ≤ 8) : (viaTick v).srCount ≤ 8 := by
  have h1 : (viaTimer1 (viaEndPulses v)).srCount ≤ 8 := by
    rw [viaTimer1_srCount, viaEndPulses_srCount]; exact h
  have h2 : ∀ (b : Bool) (w : Via), w.srCount ≤ 8 → (if b then w else viaTimer2 w).srCount ≤ 8 := by
    intro b w hw
    cases b
    · exact viaTimer2_srCount hw
    · exact hw
  have h3 : ∀ (b : Bool) (w : Via), w.srCount ≤ 8 → (if b then viaShiftClock w else w).srCount ≤ 8 := by
    intro b w hw
    cases b
    · exact hw
    · exact viaShiftClock_srCount hw
  exact h3 _ _ (h2 _ _ h1)

theorem viaAdvance_srCount (n : Nat) {v : Via} (h : v.srCount ≤ 8) : (viaAdvance n v).srCount ≤ 8 := by
  induction n generalizing v with
  | zero => exact h
  | succ n ih => exact ih (viaTick_srCount h)

theorem viaSetPortB_srCount (levels : Byte) {v : Via} (h : v.srCount ≤ 8) : (viaSetPortB levels v).srCount ≤ 8 := by
  unfold viaSetPortB
  simp only
  split
  · exact viaTimer2_srCount (v := { v with pb := levels }) h
  · exact h

theorem viaSetCa1_srCount (level : Bool) (v : Via) : (viaSetCa1 level v).srCount = v.srCount := by
  unfold viaSetCa1 viaActiveCa1 viaRaise
  simp only
  repeat' split
  all_goals rfl

theorem viaSetCa2_srCount (level : Bool) (v : Via) : (viaSetCa2 level v).srCount = v.srCount := by
  unfold viaSetCa2
  simp only
  split <;> rfl

theorem viaSetCb2_srCount (level : Bool) (v : Via) : (viaSetCb2 level v).srCount = v.srCount := by
  unfold viaSetCb2
  simp only
  split <;> rfl

theorem viaActiveCb1_srCount (v : Via) : (viaActiveCb1 v).srCount = v.srCount := by
  unfold viaActiveCb1 viaRaise
  simp only
  repeat' split
  all_goals rfl

theorem viaSetCb1_srCount (level : Bool) {v : Via} (h : v.srCount ≤ 8) : (viaSetCb1 level v).srCount ≤ 8 := by
  have h1 : (if isEdge (v.pcr.getLsbD 4) v.cb1 level then viaActiveCb1 { v with cb1 := level }
      else { v with cb1 := level }).srCount ≤ 8 := by
    split
    · rw [viaActiveCb1_srCount]; exact h
    · exact h
  unfold viaSetCb1
  simp only
  split
  · exact viaExternalShift_srCount h1
  · exact h1

/-! ### The bus -/

theorem putVia_keeps {v : Via} {s : State} (h : s.via.srCount ≤ 8 → v.srCount ≤ 8) : Keeps s (s.putVia v) :=
  ⟨rfl, id, fun _ _ => rfl, h⟩

theorem elapse_keeps (s : State) : Keeps s (elapse s) :=
  (putVia_keeps (viaAdvance_srCount _)).trans (.of_eq rfl rfl rfl)

theorem memRead8_keeps (a : Word) (s : State) : Keeps s (memRead8 a s).2 := by
  unfold memRead8
  split
  · exact .refl s
  · exact .refl s
  · exact (elapse_keeps s).trans (putVia_keeps (viaRead_srCount _ _))
  · exact .of_eq rfl rfl rfl

theorem memWrite8_keeps (a : Word) (v : Byte) (s : State) : Keeps s (memWrite8 a v s) := by
  refine ⟨by simp, memWrite8_wf, ?_, ?_⟩
  · intro b hb
    refine memWrite8_other (.inr ?_)
    simpa [isRam] using hb
  · intro h
    unfold memWrite8
    split
    · exact h
    · exact h
    · exact viaWrite_srCount _ _ ((elapse_keeps s).count h)
    · exact h

theorem memRead16_keeps (a : Word) (s : State) : Keeps s (memRead16 a s).2 :=
  (memRead8_keeps _ _).trans (memRead8_keeps _ _)

theorem memWrite16_keeps (a v : Word) (s : State) : Keeps s (memWrite16 a v s) :=
  (memWrite8_keeps _ _ _).trans (memWrite8_keeps _ _ _)

/-! ### Registers and flags -/

theorem putFlags_keeps (f : FlagEffects) (s : State) : Keeps s (putFlags f s) := by
  rw [putFlags_eq]; exact .of_eq rfl rfl rfl

theorem writeAcc_keeps (r : Acc) (v : Byte) (s : State) : Keeps s (writeAcc r v s) := by
  cases r <;> exact .of_eq rfl rfl rfl

theorem loadReg16_keeps (r : Reg16) (v : Word) (s : State) : Keeps s (loadReg16 r v s) := by
  cases r <;> exact .of_eq rfl rfl rfl

theorem regWrite8_keeps (r : RegCode) (v : Byte) (s : State) : Keeps s (regWrite8 r v s) := by
  cases r <;> exact .of_eq rfl rfl rfl

theorem regWrite16_keeps (r : RegCode) (v : Word) (s : State) : Keeps s (regWrite16 r v s) := by
  cases r <;> exact .of_eq rfl rfl rfl

theorem stepIndex_keeps (r : IdxReg) (v : Word) (s : State) : Keeps s (stepIndex r v s) := by
  cases r <;> exact .of_eq rfl rfl rfl

theorem moveStack_keeps (k : StackReg) (v : Word) (s : State) : Keeps s (moveStack k v s) := by
  cases k <;> exact .of_eq rfl rfl rfl

theorem loadStack_keeps (k : StackReg) (v : Word) (s : State) : Keeps s (loadStack k v s) := by
  cases k <;> exact .of_eq rfl rfl rfl

/-! ### Stacks and interrupts -/

theorem push8_keeps (k : StackReg) (v : Byte) (s : State) : Keeps s (push8 k v s) :=
  (moveStack_keeps k _ s).trans (memWrite8_keeps _ _ _)

theorem push16_keeps (k : StackReg) (v : Word) (s : State) : Keeps s (push16 k v s) :=
  (push8_keeps _ _ _).trans (push8_keeps _ _ _)

theorem pull8_keeps (k : StackReg) (s : State) : Keeps s (pull8 k s).2 :=
  (memRead8_keeps _ _).trans (moveStack_keeps _ _ _)

theorem pull16_keeps (k : StackReg) (s : State) : Keeps s (pull16 k s).2 :=
  (pull8_keeps _ _).trans (pull8_keeps _ _)

theorem when_keeps (bit : Bool) {f : State → State} (h : ∀ x, Keeps x (f x)) (s : State) : Keeps s (when bit f s) := by
  unfold when
  split
  · exact h s
  · exact .refl s

theorem pushRegs_keeps (k : StackReg) (mask : Byte) (s : State) : Keeps s (pushRegs k mask s) := by
  unfold pushRegs
  iterate 4 refine Keeps.trans ?_ (when_keeps _ (fun _ => push8_keeps _ _ _) _)
  iterate 4 refine Keeps.trans ?_ (when_keeps _ (fun _ => push16_keeps _ _ _) _)
  exact .refl s

theorem pullInto8_keeps {k : StackReg} {put : Byte → State → State} (h : ∀ v x, Keeps x (put v x)) (s : State) :
    Keeps s (pullInto8 k put s) := (pull8_keeps k s).trans (h _ _)

theorem pullInto16_keeps {k : StackReg} {put : Word → State → State} (h : ∀ v x, Keeps x (put v x)) (s : State) :
    Keeps s (pullInto16 k put s) := (pull16_keeps k s).trans (h _ _)

theorem putCc_keeps (v : Byte) (s : State) : Keeps s (s.putCc v) := .of_eq rfl rfl rfl
theorem putA_keeps (v : Byte) (s : State) : Keeps s (s.putA v) := .of_eq rfl rfl rfl
theorem putB_keeps (v : Byte) (s : State) : Keeps s (s.putB v) := .of_eq rfl rfl rfl
theorem putDp_keeps (v : Byte) (s : State) : Keeps s (s.putDp v) := .of_eq rfl rfl rfl
theorem putX_keeps (v : Word) (s : State) : Keeps s (s.putX v) := .of_eq rfl rfl rfl
theorem putY_keeps (v : Word) (s : State) : Keeps s (s.putY v) := .of_eq rfl rfl rfl
theorem putD_keeps (v : Word) (s : State) : Keeps s (s.putD v) := .of_eq rfl rfl rfl
theorem putPc_keeps (v : Word) (s : State) : Keeps s (s.putPc v) := .of_eq rfl rfl rfl
theorem putWait_keeps (v : Wait) (s : State) : Keeps s (s.putWait v) := .of_eq rfl rfl rfl
theorem putNmiPending_keeps (v : Bool) (s : State) : Keeps s (s.putNmiPending v) := .of_eq rfl rfl rfl

theorem pullRegs_keeps (k : StackReg) (mask : Byte) (s : State) : Keeps s (pullRegs k mask s) := by
  unfold pullRegs
  refine Keeps.trans ?_ (when_keeps _ (pullInto16_keeps putPc_keeps) _)
  refine Keeps.trans ?_ (when_keeps _ (pullInto16_keeps (loadStack_keeps _)) _)
  refine Keeps.trans ?_ (when_keeps _ (pullInto16_keeps putY_keeps) _)
  refine Keeps.trans ?_ (when_keeps _ (pullInto16_keeps putX_keeps) _)
  refine Keeps.trans ?_ (when_keeps _ (pullInto8_keeps putDp_keeps) _)
  refine Keeps.trans ?_ (when_keeps _ (pullInto8_keeps putB_keeps) _)
  refine Keeps.trans ?_ (when_keeps _ (pullInto8_keeps putA_keeps) _)
  exact when_keeps _ (pullInto8_keeps putCc_keeps) _

theorem pushEntire_keeps (s : State) : Keeps s (pushEntire s) := pushRegs_keeps _ _ _

theorem stackFrame_keeps (k : Interrupt) (s : State) : Keeps s (stackFrame k s) := by
  cases k
  case firq => exact (putCc_keeps _ s).trans ((push16_keeps _ _ _).trans (push8_keeps _ _ _))
  all_goals exact (putCc_keeps (putE true s.cc) s).trans (pushEntire_keeps _)

theorem loadVector_keeps (v : Word) (s : State) : Keeps s (loadVector v s) :=
  (memRead16_keeps v s).trans (putPc_keeps _ _)

theorem enterInterrupt_keeps (k : Interrupt) (stack : Bool) (s : State) : Keeps s (enterInterrupt k stack s) := by
  have h1 : Keeps s (if stack then stackFrame k s else s) := by
    cases stack
    · exact .refl s
    · exact stackFrame_keeps k s
  have h2 : ∀ x : State, Keeps x (if k = .nmi then x.putNmiPending false else x) := by
    intro x
    split
    · exact putNmiPending_keeps _ _
    · exact .refl x
  exact h1.trans ((putCc_keeps _ _).trans ((h2 _).trans (loadVector_keeps _ _)))

theorem returnFromInterrupt_keeps (s : State) : Keeps s (returnFromInterrupt s) := by
  have h : ∀ x : State, Keeps x (if ccE x.cc then pullRegs .s 0x7E#8 x else x) := by
    intro x
    cases ccE x.cc
    · exact .refl x
    · exact pullRegs_keeps _ _ _
  unfold returnFromInterrupt
  refine Keeps.trans ?_ (pullInto16_keeps putPc_keeps _)
  exact (pullInto8_keeps putCc_keeps s).trans (h _)

theorem drawWord_keeps (s : State) : Keeps s (drawWord s).2 := .of_eq rfl rfl rfl

theorem resetSequence_keeps (s : State) : Keeps s (resetSequence s) := by
  unfold resetSequence
  refine Keeps.trans ?_ (loadVector_keeps _ _)
  exact ⟨by simp, by simp, fun _ _ => by simp, fun _ => Nat.zero_le 8⟩

/-! ### Operands -/

theorem indexedBase_keeps (ix : Indexed) (s : State) : Keeps s (indexedBase ix s).2 := by
  cases ix <;> first | exact .refl s | exact stepIndex_keeps _ _ _

theorem eaIndexed_keeps (ix : Indexed) (s : State) : Keeps s (eaIndexed ix s).2 := by
  unfold eaIndexed
  simp only
  split
  · exact (indexedBase_keeps ix s).trans (memRead16_keeps _ _)
  · exact indexedBase_keeps ix s

theorem modifyMem_keeps (f : Unary8) (e : Word × State) : Keeps e.2 (modifyMem f e) :=
  (memRead8_keeps _ _).trans ((memWrite8_keeps _ _ _).trans (putFlags_keeps _ _))

theorem testMem_keeps (e : Word × State) : Keeps e.2 (testMem e) :=
  (memRead8_keeps _ _).trans (putFlags_keeps _ _)

theorem modifyAcc_keeps (f : Unary8) (r : Acc) (s : State) : Keeps s (modifyAcc f r s) :=
  (writeAcc_keeps _ _ _).trans (putFlags_keeps _ _)

theorem testAcc_keeps (r : Acc) (s : State) : Keeps s (testAcc r s) := putFlags_keeps _ _

theorem operateAcc_keeps (f : Binary8) (r : Acc) (m : Byte × State) : Keeps m.2 (operateAcc f r m) :=
  (writeAcc_keeps _ _ _).trans (putFlags_keeps _ _)

theorem compareAcc_keeps (f : Binary8) (r : Acc) (m : Byte × State) : Keeps m.2 (compareAcc f r m) :=
  putFlags_keeps _ _

theorem loadAcc_keeps (r : Acc) (m : Byte × State) : Keeps m.2 (loadAcc r m) :=
  (writeAcc_keeps _ _ _).trans (putFlags_keeps _ _)

theorem storeAcc_keeps (r : Acc) (e : Word × State) : Keeps e.2 (storeAcc r e) :=
  (putFlags_keeps _ _).trans (memWrite8_keeps _ _ _)

theorem decimalAdjust_keeps (s : State) : Keeps s (decimalAdjust s) :=
  (putA_keeps _ s).trans (putFlags_keeps _ _)

theorem operateD_keeps (f : Word → Word → Word × FlagEffects) (m : Word × State) : Keeps m.2 (operateD f m) :=
  (putD_keeps _ m.2).trans (putFlags_keeps _ _)

theorem multiply_keeps (s : State) : Keeps s (multiply s) :=
  (putD_keeps _ s).trans (putFlags_keeps _ _)

theorem signExtendB_keeps (s : State) : Keeps s (signExtendB s) :=
  (putA_keeps _ s).trans (putFlags_keeps _ _)

theorem compare16_keeps (r : Reg16) (m : Word × State) : Keeps m.2 (compare16 r m) := putFlags_keeps _ _

theorem load16_keeps (r : Reg16) (m : Word × State) : Keeps m.2 (load16 r m) :=
  (loadReg16_keeps _ _ _).trans (putFlags_keeps _ _)

theorem store16_keeps (r : Reg16) (e : Word × State) : Keeps e.2 (store16 r e) :=
  (putFlags_keeps _ _).trans (memWrite16_keeps _ _ _)

theorem leaWithZ_keeps (r : Reg16) (e : Word × State) : Keeps e.2 (leaWithZ r e) :=
  (loadReg16_keeps _ _ _).trans (putFlags_keeps _ _)

theorem leaNoFlags_keeps (r : Reg16) (e : Word × State) : Keeps e.2 (leaNoFlags r e) := loadReg16_keeps _ _ _

theorem exchangeRegs_keeps (r1 r2 : RegCode) (s : State) : Keeps s (exchangeRegs r1 r2 s) := by
  unfold exchangeRegs
  split
  · exact (regWrite16_keeps _ _ _).trans (regWrite16_keeps _ _ _)
  · exact (regWrite8_keeps _ _ _).trans (regWrite8_keeps _ _ _)

theorem transferReg_keeps (r1 r2 : RegCode) (s : State) : Keeps s (transferReg r1 r2 s) := by
  unfold transferReg
  split
  · exact regWrite16_keeps _ _ _
  · exact regWrite8_keeps _ _ _

theorem clearAndWait_keeps (ii : Byte) (s : State) : Keeps s (clearAndWait ii s) :=
  (putCc_keeps _ s).trans ((pushRegs_keeps _ _ _).trans (putWait_keeps _ _))

theorem branch_keeps (c : Cond) (target : Word) (s : State) : Keeps s (branch c target s) := by
  unfold branch
  split
  · exact .of_eq rfl rfl rfl
  · exact .refl s

theorem jumpTo_keeps (e : Word × State) : Keeps e.2 (jumpTo e) := putPc_keeps _ _

theorem callTo_keeps (e : Word × State) : Keeps e.2 (callTo e) := (push16_keeps _ _ _).trans (putPc_keeps _ _)

/-! ### The step around an instruction -/

theorem fetchFrom_keeps (n : Nat) (bytes : List Byte) (s : State) : Keeps s (fetchFrom n bytes s).2 := by
  induction n generalizing bytes s with
  | zero => exact .refl s
  | succ n ih =>
    unfold fetchFrom
    split
    · exact ((memRead8_keeps _ _).trans (putPc_keeps _ _)).trans (ih _ _)
    · exact .refl s
    · exact .refl s

theorem applyEvent_keeps (e : HostEvent) (s : State) : Keeps s (applyEvent e s) := by
  cases e
  case nmiEdge => unfold applyEvent; simp only; split <;> exact .of_eq rfl rfl rfl
  case reset level =>
    unfold applyEvent
    simp only
    split
    · exact (Keeps.of_eq rfl rfl rfl : Keeps s (s.putResetLine false)).trans (resetSequence_keeps _)
    · exact .of_eq rfl rfl rfl
  case portB levels => exact putVia_keeps (viaSetPortB_srCount _)
  case ca1 level => exact putVia_keeps (by rw [viaSetCa1_srCount]; exact id)
  case ca2 level => exact putVia_keeps (by rw [viaSetCa2_srCount]; exact id)
  case cb1 level => exact putVia_keeps (viaSetCb1_srCount _)
  case cb2 level => exact putVia_keeps (by rw [viaSetCb2_srCount]; exact id)
  case portA levels => exact putVia_keeps id
  all_goals exact .of_eq rfl rfl rfl

theorem applyEvents_keeps (l : List HostEvent) (s : State) : Keeps s (applyEvents l s) := by
  induction l generalizing s with
  | nil => exact .refl s
  | cons e l ih => exact (applyEvent_keeps e s).trans (ih _)

theorem takeInputs_keeps (s : State) : Keeps s (takeInputs s) := by
  unfold takeInputs
  split
  · exact .refl s
  · refine Keeps.trans ?_ (applyEvents_keeps _ _)
    exact .of_eq rfl rfl rfl

theorem wakeFromSync_keeps (s : State) : Keeps s (wakeFromSync s) := by
  unfold wakeFromSync
  split
  · exact .of_eq rfl rfl rfl
  · exact .refl s

theorem finishStep_keeps (s : State) : Keeps s (finishStep s) :=
  (putVia_keeps (viaAdvance_srCount _)).trans (.of_eq rfl rfl rfl)

end Sys2Proof.Machine
end

