-- ==== Sys2Proof/Laws/Shapes.lean ====
section
/-! SUPPORT. Every instruction has one of the shapes of Safety.lean, and what `exec` does with each shape: a property of all
instructions is proved shape by shape, with no case for each of the 303 constructors. -/

namespace Sys2Proof.Machine

/-- A property of every shape is a property of every instruction. -/
theorem instr_cases {P : Instr → Prop}
    (unary : ∀ op p, P (unaryInstr op p))
    (binary : ∀ op r src, P (binaryInstr op r src))
    (load8 : ∀ r src, P (load8Instr r src))
    (store8 : ∀ r m, P (store8Instr r m))
    (addd : ∀ src, P (adddInstr src))
    (subd : ∀ src, P (subdInstr src))
    (cmp16 : ∀ r src, P (cmp16Instr r src))
    (load16 : ∀ r src, P (load16Instr r src))
    (store16 : ∀ r m, P (store16Instr r m))
    (lea : ∀ r ix, P (leaInstr r ix))
    (aba : P .aba)
    (daa : P .daa)
    (mul : P .mul)
    (sex : P .sex)
    (abx : P .abx)
    (branch : ∀ c rr, P (branchInstr c rr))
    (longBranch : ∀ c disp, P (longBranchInstr c disp))
    (jmp : ∀ m, P (jmpInstr m))
    (jsr : ∀ m, P (jsrInstr m))
    (bsr : ∀ rr, P (.bsr rr))
    (lbsr : ∀ disp, P (.lbsr disp))
    (rts : P .rts)
    (push : ∀ k mask, P (pushInstr k mask))
    (pull : ∀ k mask, P (pullInstr k mask))
    (exg : ∀ r1 r2, P (.exg r1 r2))
    (tfr : ∀ r1 r2, P (.tfr r1 r2))
    (orcc : ∀ ii, P (.orcc ii))
    (andcc : ∀ ii, P (.andcc ii))
    (sev : P .sev)
    (sync : P .sync)
    (wai : P .wai)
    (cwai : ∀ ii, P (.cwai ii))
    (swi : ∀ k i, swiInstr k = some i → P i)
    (rti : P .rti)
    (nop : ∀ i ∈ nopInstrs, P i)
    (unassigned : ∀ i, isUnassigned i = true → P i) :
    ∀ i, P i := by
  intro i
  cases i with
  | negDirect dd => exact unary .neg (.mem (.direct dd))
  | nop01 => exact nop _ (by decide)
  | nop02 => exact nop _ (by decide)
  | comDirect dd => exact unary .com (.mem (.direct dd))
  | lsrDirect dd => exact unary .lsr (.mem (.direct dd))
  | nop05 => exact nop _ (by decide)
  | rorDirect dd => exact unary .ror (.mem (.direct dd))
  | asrDirect dd => exact unary .asr (.mem (.direct dd))
  | aslDirect dd => exact unary .asl (.mem (.direct dd))
  | rolDirect dd => exact unary .rol (.mem (.direct dd))
  | decDirect dd => exact unary .dec (.mem (.direct dd))
  | sev => exact sev
  | incDirect dd => exact unary .inc (.mem (.direct dd))
  | tstDirect dd => exact unary .tst (.mem (.direct dd))
  | jmpDirect dd => exact jmp (.direct dd)
  | clrDirect dd => exact unary .clr (.mem (.direct dd))
  | nop => exact nop _ (by decide)
  | sync => exact sync
  | unassigned14 => exact unassigned _ rfl
  | unassigned15 => exact unassigned _ rfl
  | lbra disp => exact longBranch .always disp
  | lbsr disp => exact lbsr disp
  | nop18 => exact nop _ (by decide)
  | daa => exact daa
  | orcc ii => exact orcc ii
  | aba => exact aba
  | andcc ii => exact andcc ii
  | sex => exact sex
  | exg r1 r2 => exact exg r1 r2
  | tfr r1 r2 => exact tfr r1 r2
  | bra rr => exact branch .always rr
  | brn rr => exact branch .never rr
  | bhi rr => exact branch .hi rr
  | bls rr => exact branch .ls rr
  | bcc rr => exact branch .carryClear rr
  | bcs rr => exact branch .carrySet rr
  | bne rr => exact branch .ne rr
  | beq rr => exact branch .eq rr
  | bvc rr => exact branch .overflowClear rr
  | bvs rr => exact branch .overflowSet rr
  | bpl rr => exact branch .pl rr
  | bmi rr => exact branch .mi rr
  | bge rr => exact branch .ge rr
  | blt rr => exact branch .lt rr
  | bgt rr => exact branch .gt rr
  | ble rr => exact branch .le rr
  | leax ix => exact lea .x ix
  | leay ix => exact lea .y ix
  | leas ix => exact lea .s ix
  | leau ix => exact lea .u ix
  | pshs mask => exact push .s mask
  | puls mask => exact pull .s mask
  | pshu mask => exact push .u mask
  | pulu mask => exact pull .u mask
  | nop38 => exact nop _ (by decide)
  | rts => exact rts
  | abx => exact abx
  | rti => exact rti
  | cwai ii => exact cwai ii
  | mul => exact mul
  | wai => exact wai
  | swi => exact swi .swi _ rfl
  | nega => exact unary .neg (.acc .a)
  | unassigned41 => exact unassigned _ rfl
  | unassigned42 => exact unassigned _ rfl
  | coma => exact unary .com (.acc .a)
  | lsra => exact unary .lsr (.acc .a)
  | nop45 => exact nop _ (by decide)
  | rora => exact unary .ror (.acc .a)
  | asra => exact unary .asr (.acc .a)
  | asla => exact unary .asl (.acc .a)
  | rola => exact unary .rol (.acc .a)
  | deca => exact unary .dec (.acc .a)
  | unassigned4B => exact unassigned _ rfl
  | inca => exact unary .inc (.acc .a)
  | tsta => exact unary .tst (.acc .a)
  | nop4E => exact nop _ (by decide)
  | clra => exact unary .clr (.acc .a)
  | negb => exact unary .neg (.acc .b)
  | unassigned51 => exact unassigned _ rfl
  | nop52 => exact nop _ (by decide)
  | comb => exact unary .com (.acc .b)
  | lsrb => exact unary .lsr (.acc .b)
  | unassigned55 => exact unassigned _ rfl
  | rorb => exact unary .ror (.acc .b)
  | asrb => exact unary .asr (.acc .b)
  | aslb => exact unary .asl (.acc .b)
  | rolb => exact unary .rol (.acc .b)
  | decb => exact unary .dec (.acc .b)
  | unassigned5B => exact unassigned _ rfl
  | incb => exact unary .inc (.acc .b)
  | tstb => exact unary .tst (.acc .b)
  | unassigned5E => exact unassigned _ rfl
  | clrb => exact unary .clr (.acc .b)
  | negIdx ix => exact unary .neg (.mem (.indexed ix))
  | unassigned61 => exact unassigned _ rfl
  | unassigned62 => exact unassigned _ rfl
  | comIdx ix => exact unary .com (.mem (.indexed ix))
  | lsrIdx ix => exact unary .lsr (.mem (.indexed ix))
  | unassigned65 => exact unassigned _ rfl
  | rorIdx ix => exact unary .ror (.mem (.indexed ix))
  | asrIdx ix => exact unary .asr (.mem (.indexed ix))
  | aslIdx ix => exact unary .asl (.mem (.indexed ix))
  | rolIdx ix => exact unary .rol (.mem (.indexed ix))
  | decIdx ix => exact unary .dec (.mem (.indexed ix))
  | unassigned6B => exact unassigned _ rfl
  | incIdx ix => exact unary .inc (.mem (.indexed ix))
  | tstIdx ix => exact unary .tst (.mem (.indexed ix))
  | jmpIdx ix => exact jmp (.indexed ix)
  | clrIdx ix => exact unary .clr (.mem (.indexed ix))
  | negExt ea => exact unary .neg (.mem (.extended ea))
  | unassigned71 => exact unassigned _ rfl
  | unassigned72 => exact unassigned _ rfl
  | comExt ea => exact unary .com (.mem (.extended ea))
  | lsrExt ea => exact unary .lsr (.mem (.extended ea))
  | unassigned75 => exact unassigned _ rfl
  | rorExt ea => exact unary .ror (.mem (.extended ea))
  | asrExt ea => exact unary .asr (.mem (.extended ea))
  | aslExt ea => exact unary .asl (.mem (.extended ea))
  | rolExt ea => exact unary .rol (.mem (.extended ea))
  | decExt ea => exact unary .dec (.mem (.extended ea))
  | nop7B => exact nop _ (by decide)
  | incExt ea => exact unary .inc (.mem (.extended ea))
  | tstExt ea => exact unary .tst (.mem (.extended ea))
  | jmpExt ea => exact jmp (.extended ea)
  | clrExt ea => exact unary .clr (.mem (.extended ea))
  | subaImm ii => exact binary .sub .a (.imm ii)
  | cmpaImm ii => exact binary .cmp .a (.imm ii)
  | sbcaImm ii => exact binary .sbc .a (.imm ii)
  | subdImm imm => exact subd (.imm imm)
  | andaImm ii => exact binary .and .a (.imm ii)
  | bitaImm ii => exact binary .bit .a (.imm ii)
  | ldaImm ii => exact load8 .a (.imm ii)
  | unassigned87 => exact unassigned _ rfl
  | eoraImm ii => exact binary .eor .a (.imm ii)
  | adcaImm ii => exact binary .adc .a (.imm ii)
  | oraImm ii => exact binary .or .a (.imm ii)
  | addaImm ii => exact binary .add .a (.imm ii)
  | cmpxImm imm => exact cmp16 .x (.imm imm)
  | bsr rr => exact bsr rr
  | ldxImm imm => exact load16 .x (.imm imm)
  | nop8F => exact nop _ (by decide)
  | subaDirect dd => exact binary .sub .a (.mem (.direct dd))
  | cmpaDirect dd => exact binary .cmp .a (.mem (.direct dd))
  | sbcaDirect dd => exact binary .sbc .a (.mem (.direct dd))
  | subdDirect dd => exact subd (.mem (.direct dd))
  | andaDirect dd => exact binary .and .a (.mem (.direct dd))
  | bitaDirect dd => exact binary .bit .a (.mem (.direct dd))
  | ldaDirect dd => exact load8 .a (.mem (.direct dd))
  | staDirect dd => exact store8 .a (.direct dd)
  | eoraDirect dd => exact binary .eor .a (.mem (.direct dd))
  | adcaDirect dd => exact binary .adc .a (.mem (.direct dd))
  | oraDirect dd => exact binary .or .a (.mem (.direct dd))
  | addaDirect dd => exact binary .add .a (.mem (.direct dd))
  | cmpxDirect dd => exact cmp16 .x (.mem (.direct dd))
  | jsrDirect dd => exact jsr (.direct dd)
  | ldxDirect dd => exact load16 .x (.mem (.direct dd))
  | stxDirect dd => exact store16 .x (.direct dd)
  | subaIdx ix => exact binary .sub .a (.mem (.indexed ix))
  | cmpaIdx ix => exact binary .cmp .a (.mem (.indexed ix))
  | sbcaIdx ix => exact binary .sbc .a (.mem (.indexed ix))
  | subdIdx ix => exact subd (.mem (.indexed ix))
  | andaIdx ix => exact binary .and .a (.mem (.indexed ix))
  | bitaIdx ix => exact binary .bit .a (.mem (.indexed ix))
  | ldaIdx ix => exact load8 .a (.mem (.indexed ix))
  | staIdx ix => exact store8 .a (.indexed ix)
  | eoraIdx ix => exact binary .eor .a (.mem (.indexed ix))
  | adcaIdx ix => exact binary .adc .a (.mem (.indexed ix))
  | oraIdx ix => exact binary .or .a (.mem (.indexed ix))
  | addaIdx ix => exact binary .add .a (.mem (.indexed ix))
  | cmpxIdx ix => exact cmp16 .x (.mem (.indexed ix))
  | jsrIdx ix => exact jsr (.indexed ix)
  | ldxIdx ix => exact load16 .x (.mem (.indexed ix))
  | stxIdx ix => exact store16 .x (.indexed ix)
  | subaExt ea => exact binary .sub .a (.mem (.extended ea))
  | cmpaExt ea => exact binary .cmp .a (.mem (.extended ea))
  | sbcaExt ea => exact binary .sbc .a (.mem (.extended ea))
  | subdExt ea => exact subd (.mem (.extended ea))
  | andaExt ea => exact binary .and .a (.mem (.extended ea))
  | bitaExt ea => exact binary .bit .a (.mem (.extended ea))
  | ldaExt ea => exact load8 .a (.mem (.extended ea))
  | staExt ea => exact store8 .a (.extended ea)
  | eoraExt ea => exact binary .eor .a (.mem (.extended ea))
  | adcaExt ea => exact binary .adc .a (.mem (.extended ea))
  | oraExt ea => exact binary .or .a (.mem (.extended ea))
  | addaExt ea => exact binary .add .a (.mem (.extended ea))
  | cmpxExt ea => exact cmp16 .x (.mem (.extended ea))
  | jsrExt ea => exact jsr (.extended ea)
  | ldxExt ea => exact load16 .x (.mem (.extended ea))
  | stxExt ea => exact store16 .x (.extended ea)
  | subbImm ii => exact binary .sub .b (.imm ii)
  | cmpbImm ii => exact binary .cmp .b (.imm ii)
  | sbcbImm ii => exact binary .sbc .b (.imm ii)
  | adddImm imm => exact addd (.imm imm)
  | andbImm ii => exact binary .and .b (.imm ii)
  | bitbImm ii => exact binary .bit .b (.imm ii)
  | ldbImm ii => exact load8 .b (.imm ii)
  | unassignedC7 => exact unassigned _ rfl
  | eorbImm ii => exact binary .eor .b (.imm ii)
  | adcbImm ii => exact binary .adc .b (.imm ii)
  | orbImm ii => exact binary .or .b (.imm ii)
  | addbImm ii => exact binary .add .b (.imm ii)
  | lddImm imm => exact load16 .d (.imm imm)
  | unassignedCD => exact unassigned _ rfl
  | lduImm imm => exact load16 .u (.imm imm)
  | unassignedCF => exact unassigned _ rfl
  | subbDirect dd => exact binary .sub .b (.mem (.direct dd))
  | cmpbDirect dd => exact binary .cmp .b (.mem (.direct dd))
  | sbcbDirect dd => exact binary .sbc .b (.mem (.direct dd))
  | adddDirect dd => exact addd (.mem (.direct dd))
  | andbDirect dd => exact binary .and .b (.mem (.direct dd))
  | bitbDirect dd => exact binary .bit .b (.mem (.direct dd))
  | ldbDirect dd => exact load8 .b (.mem (.direct dd))
  | stbDirect dd => exact store8 .b (.direct dd)
  | eorbDirect dd => exact binary .eor .b (.mem (.direct dd))
  | adcbDirect dd => exact binary .adc .b (.mem (.direct dd))
  | orbDirect dd => exact binary .or .b (.mem (.direct dd))
  | addbDirect dd => exact binary .add .b (.mem (.direct dd))
  | lddDirect dd => exact load16 .d (.mem (.direct dd))
  | stdDirect dd => exact store16 .d (.direct dd)
  | lduDirect dd => exact load16 .u (.mem (.direct dd))
  | stuDirect dd => exact store16 .u (.direct dd)
  | subbIdx ix => exact binary .sub .b (.mem (.indexed ix))
  | cmpbIdx ix => exact binary .cmp .b (.mem (.indexed ix))
  | sbcbIdx ix => exact binary .sbc .b (.mem (.indexed ix))
  | adddIdx ix => exact addd (.mem (.indexed ix))
  | andbIdx ix => exact binary .and .b (.mem (.indexed ix))
  | bitbIdx ix => exact binary .bit .b (.mem (.indexed ix))
  | ldbIdx ix => exact load8 .b (.mem (.indexed ix))
  | stbIdx ix => exact store8 .b (.indexed ix)
  | eorbIdx ix => exact binary .eor .b (.mem (.indexed ix))
  | adcbIdx ix => exact binary .adc .b (.mem (.indexed ix))
  | orbIdx ix => exact binary .or .b (.mem (.indexed ix))
  | addbIdx ix => exact binary .add .b (.mem (.indexed ix))
  | lddIdx ix => exact load16 .d (.mem (.indexed ix))
  | stdIdx ix => exact store16 .d (.indexed ix)
  | lduIdx ix => exact load16 .u (.mem (.indexed ix))
  | stuIdx ix => exact store16 .u (.indexed ix)
  | subbExt ea => exact binary .sub .b (.mem (.extended ea))
  | cmpbExt ea => exact binary .cmp .b (.mem (.extended ea))
  | sbcbExt ea => exact binary .sbc .b (.mem (.extended ea))
  | adddExt ea => exact addd (.mem (.extended ea))
  | andbExt ea => exact binary .and .b (.mem (.extended ea))
  | bitbExt ea => exact binary .bit .b (.mem (.extended ea))
  | ldbExt ea => exact load8 .b (.mem (.extended ea))
  | stbExt ea => exact store8 .b (.extended ea)
  | eorbExt ea => exact binary .eor .b (.mem (.extended ea))
  | adcbExt ea => exact binary .adc .b (.mem (.extended ea))
  | orbExt ea => exact binary .or .b (.mem (.extended ea))
  | addbExt ea => exact binary .add .b (.mem (.extended ea))
  | lddExt ea => exact load16 .d (.mem (.extended ea))
  | stdExt ea => exact store16 .d (.extended ea)
  | lduExt ea => exact load16 .u (.mem (.extended ea))
  | stuExt ea => exact store16 .u (.extended ea)
  | lbrn disp => exact longBranch .never disp
  | lbhi disp => exact longBranch .hi disp
  | lbls disp => exact longBranch .ls disp
  | lbcc disp => exact longBranch .carryClear disp
  | lbcs disp => exact longBranch .carrySet disp
  | lbne disp => exact longBranch .ne disp
  | lbeq disp => exact longBranch .eq disp
  | lbvc disp => exact longBranch .overflowClear disp
  | lbvs disp => exact longBranch .overflowSet disp
  | lbpl disp => exact longBranch .pl disp
  | lbmi disp => exact longBranch .mi disp
  | lbge disp => exact longBranch .ge disp
  | lblt disp => exact longBranch .lt disp
  | lbgt disp => exact longBranch .gt disp
  | lble disp => exact longBranch .le disp
  | swi2 => exact swi .swi2 _ rfl
  | cmpdImm imm => exact cmp16 .d (.imm imm)
  | cmpyImm imm => exact cmp16 .y (.imm imm)
  | ldyImm imm => exact load16 .y (.imm imm)
  | cmpdDirect dd => exact cmp16 .d (.mem (.direct dd))
  | cmpyDirect dd => exact cmp16 .y (.mem (.direct dd))
  | ldyDirect dd => exact load16 .y (.mem (.direct dd))
  | styDirect dd => exact store16 .y (.direct dd)
  | cmpdIdx ix => exact cmp16 .d (.mem (.indexed ix))
  | cmpyIdx ix => exact cmp16 .y (.mem (.indexed ix))
  | ldyIdx ix => exact load16 .y (.mem (.indexed ix))
  | styIdx ix => exact store16 .y (.indexed ix)
  | cmpdExt ea => exact cmp16 .d (.mem (.extended ea))
  | cmpyExt ea => exact cmp16 .y (.mem (.extended ea))
  | ldyExt ea => exact load16 .y (.mem (.extended ea))
  | styExt ea => exact store16 .y (.extended ea)
  | ldsImm imm => exact load16 .s (.imm imm)
  | ldsDirect dd => exact load16 .s (.mem (.direct dd))
  | stsDirect dd => exact store16 .s (.direct dd)
  | ldsIdx ix => exact load16 .s (.mem (.indexed ix))
  | stsIdx ix => exact store16 .s (.indexed ix)
  | ldsExt ea => exact load16 .s (.mem (.extended ea))
  | stsExt ea => exact store16 .s (.extended ea)
  | unassignedPage10 sub => exact unassigned _ rfl
  | swi3 => exact swi .swi3 _ rfl
  | cmpuImm imm => exact cmp16 .u (.imm imm)
  | cmpsImm imm => exact cmp16 .s (.imm imm)
  | cmpuDirect dd => exact cmp16 .u (.mem (.direct dd))
  | cmpsDirect dd => exact cmp16 .s (.mem (.direct dd))
  | cmpuIdx ix => exact cmp16 .u (.mem (.indexed ix))
  | cmpsIdx ix => exact cmp16 .s (.mem (.indexed ix))
  | cmpuExt ea => exact cmp16 .u (.mem (.extended ea))
  | cmpsExt ea => exact cmp16 .s (.mem (.extended ea))
  | unassignedPage11 sub => exact unassigned _ rfl

/-! ### What `exec` does with a shape -/

/-- The function a one-operand instruction applies; `TST` applies none. -/
def unaryFunction : UnaryOp → Unary8
  | .neg => negOp
  | .com => comOp
  | .lsr => lsrOp
  | .ror => ror8
  | .asr => asrOp
  | .asl => aslOp
  | .rol => rol8
  | .dec => decOp
  | .inc => incOp
  | .tst => fun m _ => (m, tstFlags8 m)
  | .clr => clrOp

/-- The function a two-operand instruction applies. -/
def binaryFunction : BinaryOp → Binary8
  | .sub | .cmp => subOp
  | .sbc => sbcOp
  | .and | .bit => andOp
  | .eor => eorOp
  | .adc => adcOp
  | .or => orOp
  | .add => addOp

/-- The operand of a one-operand instruction replaced, with its flags. -/
def modifyPlace (f : Unary8) (p : Place) (s : State) : State :=
  match p with
  | .acc r => modifyAcc f r s
  | .mem m => modifyMem f (m.address s)

theorem exec_unary {op : UnaryOp} (h : op ≠ .tst) (p : Place) (s : State) :
    exec (unaryInstr op p) s = .next (modifyPlace (unaryFunction op) p s) := by
  cases p with
  | acc r => cases r <;> cases op <;> rfl
  | mem m => cases m <;> cases op <;> first | rfl | exact absurd rfl h

theorem exec_test (p : Place) (s : State) :
    exec (unaryInstr .tst p) s = .next (putFlags (tstFlags8 (p.operand s).1) (p.operand s).2) := by
  cases p with
  | acc r => cases r <;> rfl
  | mem m => cases m <;> rfl

theorem exec_binary {op : BinaryOp} (h : op ≠ .cmp ∧ op ≠ .bit) (r : Acc) (src : Source8) (s : State) :
    exec (binaryInstr op r src) s = .next (operateAcc (binaryFunction op) r (src.read s)) := by
  cases op
  case cmp => exact absurd rfl h.1
  case bit => exact absurd rfl h.2
  all_goals cases src with
    | imm ii => cases r <;> rfl
    | mem m => cases m <;> cases r <;> rfl

theorem exec_compare {op : BinaryOp} (h : op = .cmp ∨ op = .bit) (r : Acc) (src : Source8) (s : State) :
    exec (binaryInstr op r src) s = .next (compareAcc (binaryFunction op) r (src.read s)) := by
  rcases h with rfl | rfl
  all_goals cases src with
    | imm ii => cases r <;> rfl
    | mem m => cases m <;> cases r <;> rfl

theorem exec_load8 (r : Acc) (src : Source8) (s : State) : exec (load8Instr r src) s = .next (loadAcc r (src.read s)) := by
  cases src with
  | imm ii => cases r <;> rfl
  | mem m => cases m <;> cases r <;> rfl

theorem exec_store8 (r : Acc) (m : MemMode) (s : State) : exec (store8Instr r m) s = .next (storeAcc r (m.address s)) := by
  cases m <;> cases r <;> rfl

theorem exec_addd (src : Source16) (s : State) : exec (adddInstr src) s = .next (operateD add16 (src.read s)) := by
  cases src with
  | imm v => rfl
  | mem m => cases m <;> rfl

theorem exec_subd (src : Source16) (s : State) : exec (subdInstr src) s = .next (operateD sub16 (src.read s)) := by
  cases src with
  | imm v => rfl
  | mem m => cases m <;> rfl

theorem exec_cmp16 (r : Reg16) (src : Source16) (s : State) :
    exec (cmp16Instr r src) s = .next (compare16 r (src.read s)) := by
  cases src with
  | imm v => cases r <;> rfl
  | mem m => cases r <;> cases m <;> rfl

theorem exec_load16 (r : Reg16) (src : Source16) (s : State) :
    exec (load16Instr r src) s = .next (load16 r (src.read s)) := by
  cases src with
  | imm v => cases r <;> rfl
  | mem m => cases r <;> cases m <;> rfl

theorem exec_store16 (r : Reg16) (m : MemMode) (s : State) :
    exec (store16Instr r m) s = .next (store16 r (m.address s)) := by
  cases m <;> cases r <;> rfl

/-- What a load of an effective address leaves: Z for X and Y, NMI armed for S. -/
def leaState (r : IdxReg) (e : Word × State) : State :=
  match r with
  | .x => leaWithZ .x e
  | .y => leaWithZ .y e
  | .u => leaNoFlags .u e
  | .s => leaNoFlags .s e

theorem exec_lea (r : IdxReg) (ix : Indexed) (s : State) :
    exec (leaInstr r ix) s = .next (leaState r (eaIndexed ix s)) := by
  cases r <;> rfl

theorem exec_branch (c : Cond) (rr : Byte) (s : State) :
    exec (branchInstr c rr) s = .next (branch c (relTarget8 rr s) s) := by
  cases c <;> rfl

theorem exec_longBranch (c : Cond) (disp : Word) (s : State) :
    exec (longBranchInstr c disp) s = .next (branch c (relTarget16 disp s) s) := by
  cases c <;> rfl

theorem exec_jmp (m : MemMode) (s : State) : exec (jmpInstr m) s = .next (jumpTo (m.address s)) := by
  cases m <;> rfl

theorem exec_jsr (m : MemMode) (s : State) : exec (jsrInstr m) s = .next (callTo (m.address s)) := by
  cases m <;> rfl

theorem exec_push (k : StackReg) (mask : Byte) (s : State) :
    exec (pushInstr k mask) s = .next (pushRegs k mask s) := by
  cases k <;> rfl

theorem exec_pull (k : StackReg) (mask : Byte) (s : State) :
    exec (pullInstr k mask) s = .next (pullRegs k mask s) := by
  cases k <;> rfl

theorem exec_exg (r1 r2 : RegCode) (s : State) : exec (.exg r1 r2) s =
    if isWide r1 == isWide r2 then .next (exchangeRegs r1 r2 s) else .refused .illegalRegisterPair := rfl

theorem exec_tfr (r1 r2 : RegCode) (s : State) : exec (.tfr r1 r2) s =
    if isWide r1 == isWide r2 then .next (transferReg r1 r2 s) else .refused .illegalRegisterPair := rfl

theorem exec_swi {k : Interrupt} {i : Instr} (h : swiInstr k = some i) (s : State) :
    exec i s = .next (enterInterrupt k true s) := by
  cases k <;> simp only [swiInstr, Option.some.injEq, reduceCtorEq] at h <;> subst h <;> rfl

theorem exec_nop {i : Instr} (h : i ∈ nopInstrs) (s : State) : exec i s = .next s := by
  simp only [nopInstrs, List.mem_cons, List.not_mem_nil, or_false] at h
  rcases h with rfl | rfl | rfl | rfl | rfl | rfl | rfl | rfl | rfl | rfl | rfl <;> rfl

/-- An unassigned encoding is refused under its own name. -/
theorem exec_unassigned {i : Instr} (h : isUnassigned i = true) (s : State) :
    (∃ op, exec i s = .refused (.unassignedOpcode op)) ∨ ∃ p op, exec i s = .refused (.unassignedSubOpcode p op) := by
  unfold isUnassigned at h
  split at h
  case h_23 => exact absurd h (by decide)
  case h_21 => exact .inr ⟨_, _, rfl⟩
  case h_22 => exact .inr ⟨_, _, rfl⟩
  all_goals exact .inl ⟨_, rfl⟩

end Sys2Proof.Machine
end

