-- ==== Sys2Proof/Laws/Exec.lean ====
section
/-! SUPPORT. What every instruction keeps, whatever it is: `Keeps` of one instruction, of the fetch and of what surrounds them
in a step. -/

namespace Sys2Proof.Machine

theorem MemMode.address_keeps (m : MemMode) (s : State) : Keeps s (m.address s).2 := by
  cases m with
  | direct dd => exact .refl s
  | indexed ix => exact eaIndexed_keeps ix s
  | extended ea => exact .refl s

theorem Source8.read_keeps (src : Source8) (s : State) : Keeps s (src.read s).2 := by
  cases src with
  | imm ii => exact .refl s
  | mem m => exact (m.address_keeps s).trans (memRead8_keeps _ _)

theorem Source16.read_keeps (src : Source16) (s : State) : Keeps s (src.read s).2 := by
  cases src with
  | imm v => exact .refl s
  | mem m => exact (m.address_keeps s).trans (memRead16_keeps _ _)

theorem Place.operand_keeps (p : Place) (s : State) : Keeps s (p.operand s).2 := by
  cases p with
  | acc r => exact .refl s
  | mem m => exact (m.address_keeps s).trans (memRead8_keeps _ _)

theorem modifyPlace_keeps (f : Unary8) (p : Place) (s : State) : Keeps s (modifyPlace f p s) := by
  cases p with
  | acc r => exact modifyAcc_keeps _ _ _
  | mem m => exact (m.address_keeps s).trans (modifyMem_keeps _ _)

theorem leaState_keeps (r : IdxReg) (e : Word × State) : Keeps e.2 (leaState r e) := by
  cases r <;> first | exact leaWithZ_keeps _ _ | exact leaNoFlags_keeps _ _

/-- From an outcome that is known, the next state. -/
theorem next_eq {o : Host.Outcome State Fault Refusal} {t u : State} (h : o = .next t) (e : o = .next u) : t = u :=
  Host.Outcome.next.inj (h.symm.trans e)

/-- An instruction changes no parameter, keeps memory canonical, writes RAM alone and keeps the shift counter in its
range. -/
theorem exec_keeps {i : Instr} {s t : State} (h : exec i s = .next t) : Keeps s t := by
  induction i using instr_cases with
  | unary op p =>
    by_cases e : op = .tst
    · subst e
      rw [next_eq h (exec_test p s)]
      exact (p.operand_keeps s).trans (putFlags_keeps _ _)
    · rw [next_eq h (exec_unary e p s)]
      exact modifyPlace_keeps _ _ _
  | binary op r src =>
    by_cases e : op = .cmp ∨ op = .bit
    · rw [next_eq h (exec_compare e r src s)]
      exact (src.read_keeps s).trans (compareAcc_keeps _ _ _)
    · rw [next_eq h (exec_binary (not_or.mp e) r src s)]
      exact (src.read_keeps s).trans (operateAcc_keeps _ _ _)
  | load8 r src =>
    rw [next_eq h (exec_load8 r src s)]
    exact (src.read_keeps s).trans (loadAcc_keeps _ _)
  | store8 r m =>
    rw [next_eq h (exec_store8 r m s)]
    exact (m.address_keeps s).trans (storeAcc_keeps _ _)
  | addd src =>
    rw [next_eq h (exec_addd src s)]
    exact (src.read_keeps s).trans (operateD_keeps _ _)
  | subd src =>
    rw [next_eq h (exec_subd src s)]
    exact (src.read_keeps s).trans (operateD_keeps _ _)
  | cmp16 r src =>
    rw [next_eq h (exec_cmp16 r src s)]
    exact (src.read_keeps s).trans (compare16_keeps _ _)
  | load16 r src =>
    rw [next_eq h (exec_load16 r src s)]
    exact (src.read_keeps s).trans (load16_keeps _ _)
  | store16 r m =>
    rw [next_eq h (exec_store16 r m s)]
    exact (m.address_keeps s).trans (store16_keeps _ _)
  | lea r ix =>
    rw [next_eq h (exec_lea r ix s)]
    exact (eaIndexed_keeps ix s).trans (leaState_keeps _ _)
  | aba =>
    rw [next_eq h (u := operateAcc addOp .a (s.b, s)) rfl]
    exact operateAcc_keeps addOp .a (s.b, s)
  | daa =>
    rw [next_eq h (u := decimalAdjust s) rfl]
    exact decimalAdjust_keeps s
  | mul =>
    rw [next_eq h (u := multiply s) rfl]
    exact multiply_keeps s
  | sex =>
    rw [next_eq h (u := signExtendB s) rfl]
    exact signExtendB_keeps s
  | abx =>
    rw [next_eq h (u := s.putX (s.x + zeroExtend8 s.b)) rfl]
    exact putX_keeps _ _
  | branch c rr =>
    rw [next_eq h (exec_branch c rr s)]
    exact branch_keeps _ _ _
  | longBranch c disp =>
    rw [next_eq h (exec_longBranch c disp s)]
    exact branch_keeps _ _ _
  | jmp m =>
    rw [next_eq h (exec_jmp m s)]
    exact (m.address_keeps s).trans (jumpTo_keeps _)
  | jsr m =>
    rw [next_eq h (exec_jsr m s)]
    exact (m.address_keeps s).trans (callTo_keeps _)
  | bsr rr =>
    rw [next_eq h (u := callTo (relTarget8 rr s, s)) rfl]
    exact callTo_keeps (relTarget8 rr s, s)
  | lbsr disp =>
    rw [next_eq h (u := callTo (relTarget16 disp s, s)) rfl]
    exact callTo_keeps (relTarget16 disp s, s)
  | rts =>
    rw [next_eq h (u := pullInto16 .s State.putPc s) rfl]
    exact pullInto16_keeps putPc_keeps s
  | push k mask =>
    rw [next_eq h (exec_push k mask s)]
    exact pushRegs_keeps k mask s
  | pull k mask =>
    rw [next_eq h (exec_pull k mask s)]
    exact pullRegs_keeps k mask s
  | exg r1 r2 =>
    rw [exec_exg] at h
    split at h
    · cases h
      exact exchangeRegs_keeps r1 r2 s
    · cases h
  | tfr r1 r2 =>
    rw [exec_tfr] at h
    split at h
    · cases h
      exact transferReg_keeps r1 r2 s
    · cases h
  | orcc ii =>
    rw [next_eq h (u := s.putCc (s.cc ||| ii)) rfl]
    exact putCc_keeps _ s
  | andcc ii =>
    rw [next_eq h (u := s.putCc (s.cc &&& ii)) rfl]
    exact putCc_keeps _ s
  | sev =>
    rw [next_eq h (u := s.putCc (putV true s.cc)) rfl]
    exact putCc_keeps _ s
  | sync =>
    rw [next_eq h (u := s.putWait .sync) rfl]
    exact putWait_keeps _ s
  | wai =>
    rw [next_eq h (u := s.putWait .wai) rfl]
    exact putWait_keeps _ s
  | cwai ii =>
    rw [next_eq h (u := clearAndWait ii s) rfl]
    exact clearAndWait_keeps ii s
  | swi k i hk =>
    rw [next_eq h (exec_swi hk s)]
    exact enterInterrupt_keeps k true s
  | rti =>
    rw [next_eq h (u := returnFromInterrupt s) rfl]
    exact returnFromInterrupt_keeps s
  | nop i hi =>
    rw [next_eq h (exec_nop hi s)]
    exact .refl s
  | unassigned i hi =>
    rcases exec_unassigned hi s with ⟨op, e⟩ | ⟨p, op, e⟩ <;> rw [e] at h <;> cases h

/-- What a step does to the state after the host's events, if it answers a next state. -/
theorem perform_cases {s t : State} (h : perform s = .next t) :
    (∃ k stack, activity s = .interrupt k stack ∧ t = enterInterrupt k stack (s.putWait .running)) ∨
    (∃ i rest, activity s = .execute ∧ (fetchInstruction s).1 = .ok i rest ∧ exec i (fetchInstruction s).2 = .next t) ∨
    (activity s = .idle ∧ t = s) := by
  unfold perform at h
  split at h
  · rename_i k stack e
    exact .inl ⟨k, stack, e, (Host.Outcome.next.inj h).symm⟩
  · rename_i e
    unfold runInstruction at h
    simp only at h
    split at h
    · rename_i i rest e'
      exact .inr (.inl ⟨i, rest, e, e', h⟩)
    · cases h
    · cases h
  · rename_i e
    exact .inr (.inr ⟨e, (Host.Outcome.next.inj h).symm⟩)

/-- A step that answers a next state: RESET is asserted and the step is only counted, or the sampling point is performed and
the VIA advances. -/
theorem step_cases {s t : State} (h : step s = .next t) :
    ((takeInputs s).resetLine = true ∧ t = (takeInputs s).putSteps ((takeInputs s).steps + 1)) ∨
    ((takeInputs s).resetLine = false ∧
      ∃ u, perform (wakeFromSync (takeInputs s)) = .next u ∧ t = finishStep u) := by
  unfold step stepOnce at h
  simp only at h
  split at h
  · rename_i e
    exact .inl ⟨e, (Host.Outcome.next.inj h).symm⟩
  · rename_i e
    refine .inr ⟨by simpa using e, ?_⟩
    unfold finishOutcome at h
    split at h
    · rename_i u hu
      exact ⟨u, hu, (Host.Outcome.next.inj h).symm⟩
    · cases h
    · cases h

theorem perform_keeps {s t : State} (h : perform s = .next t) : Keeps s t := by
  rcases perform_cases h with ⟨k, stack, -, rfl⟩ | ⟨i, rest, -, -, h⟩ | ⟨-, rfl⟩
  · exact (putWait_keeps _ s).trans (enterInterrupt_keeps k stack _)
  · exact (fetchFrom_keeps 5 [] s).trans (exec_keeps h)
  · exact .refl _

end Sys2Proof.Machine
end

