-- ==== Sys2Proof/Laws/Fetch.lean ====
section
/-! SUPPORT. Fetching an instruction whose bytes stand in RAM or ROM at PC reads exactly those bytes and changes PC alone. -/

namespace Sys2Proof.Machine

theorem bytesAt_putPc {s : State} {v a : Word} {l : List Byte} (h : BytesAt s a l) : BytesAt (s.putPc v) a l := by
  induction l generalizing a with
  | nil => trivial
  | cons b l ih => exact ⟨h.1, h.2.1, ih h.2.2⟩

theorem fetch8_plain {s : State} (h : isPlain s.params s.pc = true) :
    fetch8 s = (Memory.read s.mem s.pc.toNat, s.putPc (s.pc + 1)) := by
  simp only [isPlain, Bool.or_eq_true, beq_iff_eq] at h
  simp only [fetch8, memRead8_plain h]

/-- Before the last byte of an instruction the decoder asks for more. -/
theorem decode_more {pre tail : List Byte} {v : Byte} {i : Instr} (h : decode (pre ++ v :: tail) = .ok i []) :
    decode pre = .more := by
  cases hp : decode pre with
  | more => rfl
  | ok j r =>
    have := decode_extends.ok (v :: tail) hp
    rw [h] at this
    simp at this
  | bad e =>
    have := decode_extends.bad (v :: tail) hp
    rw [h] at this
    cases this

theorem fetchFrom_bytes {n : Nat} {pre tail : List Byte} {s : State} {i : Instr} (hb : BytesAt s s.pc tail)
    (hd : decode (pre ++ tail) = .ok i []) (hn : tail.length ≤ n) :
    fetchFrom n pre s = (.ok i [], s.putPc (s.pc + BitVec.ofNat 16 tail.length)) := by
  induction tail generalizing n pre s with
  | nil =>
    rw [List.append_nil] at hd
    have hs : s.putPc (s.pc + BitVec.ofNat 16 ([] : List Byte).length) = s := by
      simp [State.putPc]
    rw [hs]
    cases n with
    | zero => simp only [fetchFrom, hd]
    | succ n => simp only [fetchFrom, hd]
  | cons v tail ih =>
    cases n with
    | zero => simp at hn
    | succ n =>
      obtain ⟨h1, h2, h3⟩ := hb
      simp only [fetchFrom, decode_more hd, fetch8_plain h1, h2]
      rw [ih (s := s.putPc (s.pc + 1)) (bytesAt_putPc h3) (by simpa using hd) (by simpa using hn)]
      simp only [putPc_pc, List.length_cons]
      have : s.pc + 1 + BitVec.ofNat 16 tail.length = s.pc + BitVec.ofNat 16 (tail.length + 1) := by
        apply BitVec.eq_of_toNat_eq
        simp only [BitVec.toNat_add, BitVec.ofNat_eq_ofNat, BitVec.toNat_ofNat]
        omega
      rw [this]
      rfl

/-- Bytes in RAM or ROM at PC that decode to an instruction are fetched as that instruction. -/
theorem fetchInstruction_bytes {bytes : List Byte} {s : State} {i : Instr} (hb : BytesAt s s.pc bytes)
    (hd : decode bytes = .ok i []) :
    fetchInstruction s = (.ok i [], s.putPc (s.pc + BitVec.ofNat 16 bytes.length)) :=
  fetchFrom_bytes hb hd (by simpa using decode_within.ok hd)

/-- The fetch always decides: five bytes are enough. -/
theorem fetchFrom_decided {n : Nat} {pre : List Byte} {s : State} (h : 5 ≤ pre.length + n) :
    (fetchFrom n pre s).1 ≠ .more := by
  induction n generalizing pre s with
  | zero =>
    intro e
    have := decode_within.more e
    omega
  | succ n ih =>
    unfold fetchFrom
    split
    · exact ih (by simp only [List.length_append, List.length_cons, List.length_nil]; omega)
    · simp
    · simp

end Sys2Proof.Machine
end

