-- ==== Sys2Proof/Laws/Frames.lean ====
section
/-! SUPPORT. How the frame `SameBut` composes, and its reading as one clause a piece. -/

namespace Sys2Proof.Machine

theorem SameBut.refl (out : List Part) (s : State) : SameBut out s s := by
  intro p _
  cases p <;> rfl

theorem Part.same_trans {p : Part} {s t u : State} (h : p.same s t) (g : p.same t u) : p.same s u := by
  cases p <;> exact Eq.trans g h

theorem SameBut.mono {l m : List Part} {s t : State} (h : SameBut l s t) (hs : ∀ p ∈ l, p ∈ m) : SameBut m s t :=
  fun p hp => h p (fun hl => hp (hs p hl))

theorem SameBut.trans {l m : List Part} {s t u : State} (h : SameBut l s t) (g : SameBut m t u) : SameBut (l ++ m) s u :=
  fun p hp => Part.same_trans (h p (fun hl => hp (List.mem_append_left _ hl)))
    (g p (fun hm => hp (List.mem_append_right _ hm)))

/-- A frame, one clause a piece. -/
theorem sameBut_iff {out : List Part} {s t : State} : SameBut out s t ↔
    (Part.a ∉ out → t.a = s.a) ∧
    (Part.b ∉ out → t.b = s.b) ∧
    (Part.x ∉ out → t.x = s.x) ∧
    (Part.y ∉ out → t.y = s.y) ∧
    (Part.u ∉ out → t.u = s.u) ∧
    (Part.s ∉ out → t.s = s.s) ∧
    (Part.pc ∉ out → t.pc = s.pc) ∧
    (Part.dp ∉ out → t.dp = s.dp) ∧
    (Part.flag .e ∉ out → ccE t.cc = ccE s.cc) ∧
    (Part.flag .f ∉ out → ccF t.cc = ccF s.cc) ∧
    (Part.flag .h ∉ out → ccH t.cc = ccH s.cc) ∧
    (Part.flag .i ∉ out → ccI t.cc = ccI s.cc) ∧
    (Part.flag .n ∉ out → ccN t.cc = ccN s.cc) ∧
    (Part.flag .z ∉ out → ccZ t.cc = ccZ s.cc) ∧
    (Part.flag .v ∉ out → ccV t.cc = ccV s.cc) ∧
    (Part.flag .c ∉ out → ccC t.cc = ccC s.cc) ∧
    (Part.wait ∉ out → t.wait = s.wait) ∧
    (Part.nmiArmed ∉ out → t.nmiArmed = s.nmiArmed) ∧
    (Part.nmiPending ∉ out → t.nmiPending = s.nmiPending) ∧
    (Part.firqLine ∉ out → t.firqLine = s.firqLine) ∧
    (Part.irqExt ∉ out → t.irqExt = s.irqExt) ∧
    (Part.resetLine ∉ out → t.resetLine = s.resetLine) ∧
    (Part.mem ∉ out → t.mem = s.mem) ∧
    (Part.via ∉ out → t.via = s.via) ∧
    (Part.params ∉ out → t.params = s.params) ∧
    (Part.inputs ∉ out → t.inputs = s.inputs) ∧
    (Part.draws ∉ out → t.draws = s.draws) ∧
    (Part.steps ∉ out → t.steps = s.steps) := by
  constructor
  · intro h
    exact ⟨h .a, h .b, h .x, h .y, h .u, h .s, h .pc, h .dp, h (.flag .e), h (.flag .f), h (.flag .h), h (.flag .i), h (.flag .n), h (.flag .z), h (.flag .v), h (.flag .c), h .wait, h .nmiArmed, h .nmiPending, h .firqLine, h .irqExt, h .resetLine, h .mem, h .via, h .params, h .inputs, h .draws, h .steps⟩
  · rintro ⟨h0, h1, h2, h3, h4, h5, h6, h7, h8, h9, h10, h11, h12, h13, h14, h15, h16, h17, h18, h19, h20, h21, h22, h23, h24, h25, h26, h27⟩ p hp
    cases p with
    | a => exact h0 hp
    | b => exact h1 hp
    | x => exact h2 hp
    | y => exact h3 hp
    | u => exact h4 hp
    | s => exact h5 hp
    | pc => exact h6 hp
    | dp => exact h7 hp
    | wait => exact h16 hp
    | nmiArmed => exact h17 hp
    | nmiPending => exact h18 hp
    | firqLine => exact h19 hp
    | irqExt => exact h20 hp
    | resetLine => exact h21 hp
    | mem => exact h22 hp
    | via => exact h23 hp
    | params => exact h24 hp
    | inputs => exact h25 hp
    | draws => exact h26 hp
    | steps => exact h27 hp
    | flag k =>
      cases k with
      | e => exact h8 hp
      | f => exact h9 hp
      | h => exact h10 hp
      | i => exact h11 hp
      | n => exact h12 hp
      | z => exact h13 hp
      | v => exact h14 hp
      | c => exact h15 hp

/-- A state that differs in no piece is the same state. -/
theorem eq_of_sameBut_nil {s t : State} (h : SameBut [] s t) : t = s := by
  have h := sameBut_iff.mp h
  simp only [List.not_mem_nil, not_false_eq_true, forall_const] at h
  have hcc : t.cc = s.cc := cc_ext ⟨h.2.2.2.2.2.2.2.2.1, h.2.2.2.2.2.2.2.2.2.1, h.2.2.2.2.2.2.2.2.2.2.1, h.2.2.2.2.2.2.2.2.2.2.2.1, h.2.2.2.2.2.2.2.2.2.2.2.2.1, h.2.2.2.2.2.2.2.2.2.2.2.2.2.1, h.2.2.2.2.2.2.2.2.2.2.2.2.2.2.1, h.2.2.2.2.2.2.2.2.2.2.2.2.2.2.2.1⟩
  cases s
  cases t
  simp only [State.mk.injEq]
  simp only at h hcc
  tauto

end Sys2Proof.Machine
end

