-- ==== Sys2Proof/Laws/Operands.lean ====
section
/-! SUPPORT. What reading and writing operands can change, one lemma an operation, for every operand form. -/

namespace Sys2Proof.Machine

theorem memRead8_frame (a : Word) (s : State) : SameBut [.via, .draws] s (memRead8 a s).2 := by
  rw [sameBut_iff]; simp

theorem memRead16_frame (a : Word) (s : State) : SameBut [.via, .draws] s (memRead16 a s).2 := by
  rw [sameBut_iff]; simp [memRead16]

theorem memWrite8_frame (a : Word) (v : Byte) (s : State) : SameBut [.mem, .via, .draws] s (memWrite8 a v s) := by
  rw [sameBut_iff]; simp

theorem memWrite16_frame (a v : Word) (s : State) : SameBut [.mem, .via, .draws] s (memWrite16 a v s) := by
  rw [sameBut_iff]; simp [memWrite16]

theorem memWrite8_bytes (a : Word) (v : Byte) (s : State) : BytesSameBut [a] s (memWrite8 a v s) := by
  intro b hb
  exact memWrite8_other (.inl (by simpa using hb))

theorem memWrite16_bytes (a v : Word) (s : State) : BytesSameBut [a, a + 1] s (memWrite16 a v s) := by
  intro b hb
  simp only [List.mem_cons, List.not_mem_nil, or_false, not_or] at hb
  unfold memWrite16
  rw [memWrite8_other (.inl hb.2), memWrite8_other (.inl hb.1)]

theorem stepIndex_frame (r : IdxReg) (v : Word) (s : State) : SameBut [idxPart r] s (stepIndex r v s) := by
  cases r <;> (rw [sameBut_iff]; simp [stepIndex, idxPart])

theorem indexedBase_frame (ix : Indexed) (s : State) : SameBut (indexedSteps ix) s (indexedBase ix s).2 := by
  cases ix <;> first | exact SameBut.refl _ _ | exact stepIndex_frame _ _ _

theorem eaIndexed_frame (ix : Indexed) (s : State) :
    SameBut (indexedSteps ix ++ [.via, .draws]) s (eaIndexed ix s).2 := by
  unfold eaIndexed
  simp only
  split
  · exact (indexedBase_frame ix s).trans (memRead16_frame _ _)
  · exact (indexedBase_frame ix s).mono (fun p hp => List.mem_append_left _ hp)

theorem MemMode.address_frame (m : MemMode) (s : State) : SameBut m.touches s (m.address s).2 := by
  cases m with
  | direct dd => exact SameBut.refl _ _
  | indexed ix => exact eaIndexed_frame ix s
  | extended ea => exact SameBut.refl _ _

theorem MemMode.touches_cases (m : MemMode) :
    m.touches = [.via, .draws] ∨ ∃ r, m.touches = [idxPart r, .via, .draws] := by
  cases m with
  | direct dd => exact .inl rfl
  | extended ea => exact .inl rfl
  | indexed ix => cases ix <;> first | exact .inl rfl | exact .inr ⟨_, rfl⟩

/-- Reading a memory operand changes at most the register stepped, the VIA and the count of free values. -/
theorem operand8_frame (m : MemMode) (s : State) : SameBut m.touches s (operand8 (m.address s)).2 :=
  ((m.address_frame s).trans (memRead8_frame _ _)).mono (by
    intro p hp
    simp only [MemMode.touches, List.mem_append] at hp ⊢
    tauto)

theorem operand16_frame (m : MemMode) (s : State) : SameBut m.touches s (operand16 (m.address s)).2 :=
  ((m.address_frame s).trans (memRead16_frame _ _)).mono (by
    intro p hp
    simp only [MemMode.touches, List.mem_append] at hp ⊢
    tauto)

theorem Source8.read_frame (src : Source8) (s : State) : SameBut src.touches s (src.read s).2 := by
  cases src with
  | imm ii => exact SameBut.refl _ _
  | mem m => exact operand8_frame m s

theorem Source16.read_frame (src : Source16) (s : State) : SameBut src.touches s (src.read s).2 := by
  cases src with
  | imm v => exact SameBut.refl _ _
  | mem m => exact operand16_frame m s

theorem Place.operand_frame (p : Place) (s : State) :
    SameBut (match p with | .acc _ => [] | .mem m => m.touches) s (p.operand s).2 := by
  cases p with
  | acc r => exact SameBut.refl _ _
  | mem m => exact operand8_frame m s

/-- No operand form changes the pieces that are neither a base register, the VIA nor the count of free values. -/
theorem MemMode.not_touched (m : MemMode) :
    Part.a ∉ m.touches ∧ Part.b ∉ m.touches ∧ Part.pc ∉ m.touches ∧ Part.dp ∉ m.touches ∧
    (∀ k, Part.flag k ∉ m.touches) ∧ Part.wait ∉ m.touches ∧ Part.nmiArmed ∉ m.touches ∧ Part.mem ∉ m.touches ∧
    Part.params ∉ m.touches := by
  rcases m.touches_cases with h | ⟨r, h⟩
  · simp [h]
  · cases r <;> simp [h, idxPart]

/-- The whole of CC is kept where no flag is listed. -/
theorem SameBut.cc {l : List Part} {s t : State} (h : SameBut l s t) (hl : ∀ k, Part.flag k ∉ l) : t.cc = s.cc :=
  cc_ext ⟨h _ (hl .e), h _ (hl .f), h _ (hl .h), h _ (hl .i), h _ (hl .n), h _ (hl .z), h _ (hl .v), h _ (hl .c)⟩

theorem operand8_cc (m : MemMode) (s : State) : (operand8 (m.address s)).2.cc = s.cc :=
  (operand8_frame m s).cc m.not_touched.2.2.2.2.1

theorem operand16_cc (m : MemMode) (s : State) : (operand16 (m.address s)).2.cc = s.cc :=
  (operand16_frame m s).cc m.not_touched.2.2.2.2.1

theorem Source8.not_touched (src : Source8) :
    Part.a ∉ src.touches ∧ Part.b ∉ src.touches ∧ Part.pc ∉ src.touches ∧ Part.dp ∉ src.touches ∧
    (∀ k, Part.flag k ∉ src.touches) ∧ Part.mem ∉ src.touches := by
  cases src with
  | imm ii => simp [Source8.touches]
  | mem m =>
    have h := m.not_touched
    exact ⟨h.1, h.2.1, h.2.2.1, h.2.2.2.1, h.2.2.2.2.1, h.2.2.2.2.2.2.2.1⟩

theorem Source8.read_cc (src : Source8) (s : State) : (src.read s).2.cc = s.cc :=
  (src.read_frame s).cc src.not_touched.2.2.2.2.1

theorem Source8.read_acc (src : Source8) (r : Acc) (s : State) : readAcc r (src.read s).2 = readAcc r s := by
  cases r with
  | a => exact src.read_frame s _ src.not_touched.1
  | b => exact src.read_frame s _ src.not_touched.2.1

theorem Source16.not_touched (src : Source16) :
    Part.a ∉ src.touches ∧ Part.b ∉ src.touches ∧ Part.pc ∉ src.touches ∧
    (∀ k, Part.flag k ∉ src.touches) ∧ Part.nmiArmed ∉ src.touches ∧ Part.mem ∉ src.touches := by
  cases src with
  | imm ii => simp [Source16.touches]
  | mem m =>
    have h := m.not_touched
    exact ⟨h.1, h.2.1, h.2.2.1, h.2.2.2.2.1, h.2.2.2.2.2.2.1, h.2.2.2.2.2.2.2.1⟩

theorem Source16.read_cc (src : Source16) (s : State) : (src.read s).2.cc = s.cc :=
  (src.read_frame s).cc src.not_touched.2.2.2.1

theorem Source16.read_d (src : Source16) (s : State) : (src.read s).2.d = s.d := by
  have ha : (src.read s).2.a = s.a := src.read_frame s _ src.not_touched.1
  have hb : (src.read s).2.b = s.b := src.read_frame s _ src.not_touched.2.1
  simp [State.d, ha, hb]

/-- Writing the flags changes the flags that are not kept, and the count of free values if one is undefined. -/
theorem putFlags_frame {f : FlagEffects} {l : List Part} (s : State)
    (h : f.h = .keep ∨ Part.flag .h ∈ l) (n : f.n = .keep ∨ Part.flag .n ∈ l) (z : f.z = .keep ∨ Part.flag .z ∈ l)
    (v : f.v = .keep ∨ Part.flag .v ∈ l) (c : f.c = .keep ∨ Part.flag .c ∈ l) (d : f.draws = 0 ∨ Part.draws ∈ l) :
    SameBut l s (putFlags f s) := by
  rw [sameBut_iff]
  simp only [putFlags_a, putFlags_b, putFlags_x, putFlags_y, putFlags_u, putFlags_s, putFlags_pc, putFlags_dp,
    putFlags_wait, putFlags_nmiArmed, putFlags_nmiPending, putFlags_firqLine, putFlags_irqExt, putFlags_resetLine,
    putFlags_mem, putFlags_via, putFlags_params, putFlags_inputs, putFlags_steps, putFlags_draws, putFlags_ccE,
    putFlags_ccF, putFlags_ccI, implies_true, true_and, and_true]
  refine ⟨fun k => ?_, fun k => ?_, fun k => ?_, fun k => ?_, fun k => ?_, fun k => ?_⟩
  · exact putFlags_ccH_keep (h.resolve_right k)
  · exact putFlags_ccN_keep (n.resolve_right k)
  · exact putFlags_ccZ_keep (z.resolve_right k)
  · exact putFlags_ccV_keep (v.resolve_right k)
  · exact putFlags_ccC_keep (c.resolve_right k)
  · rw [d.resolve_right k]; rfl

end Sys2Proof.Machine
end

