-- ==== Sys2Proof/Laws/Stack.lean ====
section
/-! SUPPORT. Pushes as bytes written downwards and pulls as bytes read upwards, one lemma an operation; what pushes and pulls of
masks do to each register. -/

namespace Sys2Proof.Machine


/-- What was written to the state an operand's reading left. -/
theorem writes_of {written touched : List Part} {s m t : State} (h1 : SameBut touched s m)
    (h2 : SameBut written m t) : Writes written touched s m t := by
  refine ⟨h2, (h1.trans h2).mono ?_⟩
  intro q hq
  simp only [List.mem_append] at hq ⊢
  tauto

@[simp] theorem stackPointer_move (k : StackReg) (v : Word) (s : State) : stackPointer k (moveStack k v s) = v := by
  cases k <;> rfl

theorem moveStack_frame (k : StackReg) (v : Word) (s : State) : SameBut [k.part] s (moveStack k v s) := by
  cases k <;> (rw [sameBut_iff]; simp [moveStack, StackReg.part])

theorem memWrite8_move (a : Word) (b : Byte) (k : StackReg) (v : Word) (s : State) :
    memWrite8 a b (moveStack k v s) = moveStack k v (memWrite8 a b s) := by
  cases k <;> (simp only [memWrite8, moveStack, putS_params, putU_params]; split <;> rfl)

theorem move_move (k : StackReg) (v w : Word) (s : State) : moveStack k v (moveStack k w s) = moveStack k v s := by
  cases k <;> rfl

@[simp] theorem stackPointer_write (k : StackReg) (a : Word) (b : Byte) (s : State) :
    stackPointer k (memWrite8 a b s) = stackPointer k s := by
  cases k <;> simp [stackPointer]

theorem push8_eq (k : StackReg) (v : Byte) (s : State) :
    push8 k v s = moveStack k (stackPointer k s - 1) (memWrite8 (stackPointer k s - 1) v s) := by
  simp [push8, memWrite8_move]

/-- Push bytes, one after another. -/
def pushBytes (k : StackReg) (l : List Byte) (s : State) : State := l.foldl (fun s v => push8 k v s) s

theorem storeDown_move (l : List Byte) (sp : Word) (k : StackReg) (v : Word) (s : State) :
    storeDown l sp (moveStack k v s) = moveStack k v (storeDown l sp s) := by
  induction l generalizing sp s with
  | nil => rfl
  | cons b l ih => simp only [storeDown, memWrite8_move, ih]

@[simp] theorem stackPointer_storeDown (k : StackReg) (l : List Byte) (sp : Word) (s : State) :
    stackPointer k (storeDown l sp s) = stackPointer k s := by
  induction l generalizing sp s with
  | nil => rfl
  | cons b l ih => simp [storeDown, ih]

theorem move_self (k : StackReg) (s : State) : moveStack k (stackPointer k s) s = s := by
  cases k <;> rfl

theorem pushBytes_eq (k : StackReg) (l : List Byte) (s : State) :
    pushBytes k l s =
      moveStack k (stackPointer k s - BitVec.ofNat 16 l.length) (storeDown l (stackPointer k s) s) := by
  induction l generalizing s with
  | nil => simp [pushBytes, storeDown, move_self]
  | cons b l ih =>
    have : pushBytes k (b :: l) s = pushBytes k l (push8 k b s) := rfl
    rw [this, ih, push8_eq]
    simp only [stackPointer_move, storeDown_move, move_move, storeDown, List.length_cons]
    congr 1
    apply BitVec.eq_of_toNat_eq
    simp [BitVec.toNat_sub, BitVec.toNat_ofNat]
    have := (stackPointer k s).isLt
    omega

theorem pushBytes_append (k : StackReg) (l m : List Byte) (s : State) :
    pushBytes k (l ++ m) s = pushBytes k m (pushBytes k l s) := by
  simp [pushBytes]

theorem push16_list (k : StackReg) (v : Word) (s : State) : push16 k v s = pushBytes k (pushedWord v) s := rfl
theorem push8_list (k : StackReg) (v : Byte) (s : State) : push8 k v s = pushBytes k [v] s := rfl

theorem storeDown_frame (l : List Byte) (sp : Word) (s : State) : SameBut [.mem, .via, .draws] s (storeDown l sp s) := by
  induction l generalizing sp s with
  | nil => exact SameBut.refl _ _
  | cons b l ih => exact ((memWrite8_frame _ _ _).trans (ih _ _)).mono (by simp)

theorem pushBytes_frame (k : StackReg) (l : List Byte) (s : State) :
    SameBut [k.part, .mem, .via, .draws] s (pushBytes k l s) := by
  rw [pushBytes_eq]
  exact ((storeDown_frame l _ s).trans (moveStack_frame k _ _)).mono (by simp)

/-- What a push reads of the registers, after other pushes. -/
theorem pushBytes_regs (k : StackReg) (l : List Byte) (s : State) :
    (pushBytes k l s).pc = s.pc ∧ (pushBytes k l s).y = s.y ∧ (pushBytes k l s).x = s.x ∧
        (pushBytes k l s).dp = s.dp ∧
    (pushBytes k l s).b = s.b ∧ (pushBytes k l s).a = s.a ∧ (pushBytes k l s).cc = s.cc ∧
    stackPointer (otherStack k) (pushBytes k l s) = stackPointer (otherStack k) s := by
  have h := pushBytes_frame k l s
  have hcc : (pushBytes k l s).cc = s.cc := h.cc (by cases k <;> simp [StackReg.part])
  have h' := sameBut_iff.mp h
  refine ⟨?_, ?_, ?_, ?_, ?_, ?_, hcc, ?_⟩
  · exact h .pc (by cases k <;> simp [StackReg.part])
  · exact h .y (by cases k <;> simp [StackReg.part])
  · exact h .x (by cases k <;> simp [StackReg.part])
  · exact h .dp (by cases k <;> simp [StackReg.part])
  · exact h .b (by cases k <;> simp [StackReg.part])
  · exact h .a (by cases k <;> simp [StackReg.part])
  · cases k
    · exact h .u (by simp [StackReg.part])
    · exact h .s (by simp [StackReg.part])

theorem when_push16 (bit : Bool) (k : StackReg) (g : State → Word) (s : State) :
    when bit (fun s => push16 k (g s) s) s = pushBytes k (selected bit (pushedWord (g s))) s := by
  cases bit <;> rfl
theorem when_push8 (bit : Bool) (k : StackReg) (g : State → Byte) (s : State) :
    when bit (fun s => push8 k (g s) s) s = pushBytes k (selected bit [g s]) s := by
  cases bit <;> rfl

theorem pushRegs_eq (k : StackReg) (mask : Byte) (s : State) :
    pushRegs k mask s = pushBytes k (pushedBytes k mask s) s := by
  simp only [pushRegs, pushedBytes, pushBytes_append, when_push16, when_push8]
  simp only [(pushBytes_regs k _ _).2.1, (pushBytes_regs k _ _).2.2.1, (pushBytes_regs k _ _).2.2.2.1,
    (pushBytes_regs k _ _).2.2.2.2.1, (pushBytes_regs k _ _).2.2.2.2.2.1, (pushBytes_regs k _ _).2.2.2.2.2.2.1,
        (pushBytes_regs k _ _).2.2.2.2.2.2.2]

theorem mem_addressesUp (n : Nat) (a b : Word) (hn : n < 65536) : b ∈ addressesUp n a ↔ (b - a).toNat < n := by
  induction n generalizing a with
  | zero => simp [addressesUp]
  | succ n ih =>
    simp only [addressesUp, List.mem_cons, ih (a + 1) (by omega)]
    have hb := b.isLt
    have ha := a.isLt
    constructor
    · rintro (rfl | h)
      · simp
      · simp only [BitVec.toNat_sub, BitVec.toNat_add, BitVec.ofNat_eq_ofNat, BitVec.toNat_ofNat] at h ⊢
        omega
    · intro h
      by_cases e : b = a
      · exact .inl e
      · right
        have : b.toNat ≠ a.toNat := fun h => e (BitVec.eq_of_toNat_eq h)
        simp only [BitVec.toNat_sub, BitVec.toNat_add, BitVec.ofNat_eq_ofNat, BitVec.toNat_ofNat] at h ⊢
        omega

theorem storeDown_bytes (l : List Byte) (sp : Word) (s : State) (hl : l.length < 65536) :
    BytesSameBut (addressesUp l.length (sp - BitVec.ofNat 16 l.length)) s (storeDown l sp s) := by
  induction l generalizing sp s with
  | nil => exact fun _ _ => rfl
  | cons b l ih =>
    intro a ha
    simp only [List.length_cons] at hl
    simp only [List.length_cons] at ha
    rw [mem_addressesUp _ _ _ hl] at ha
    have hsp := sp.isLt
    have hA := a.isLt
    simp only [BitVec.toNat_sub, BitVec.toNat_ofNat] at ha
    simp only [storeDown]
    rw [ih (sp - 1) _ (by omega) a, memWrite8_bytes _ _ _ a]
    · simp only [List.mem_cons, List.not_mem_nil, or_false]
      rintro rfl
      simp only [BitVec.toNat_sub, BitVec.ofNat_eq_ofNat, BitVec.toNat_ofNat] at ha
      omega
    · rw [mem_addressesUp _ _ _ (by omega)]
      simp only [BitVec.toNat_sub, BitVec.ofNat_eq_ofNat, BitVec.toNat_ofNat]
      omega

theorem pushBytes_bytes (k : StackReg) (l : List Byte) (s : State) (hl : l.length < 65536) :
    BytesSameBut (addressesUp l.length (stackPointer k (pushBytes k l s))) s (pushBytes k l s) := by
  rw [pushBytes_eq, stackPointer_move]
  intro a ha
  have : ∀ v x, (moveStack k v x).mem = x.mem := by cases k <;> intro v x <;> rfl
  rw [this]
  exact storeDown_bytes l _ s hl a ha

theorem pushedBytes_length (k : StackReg) (mask : Byte) (s : State) : (pushedBytes k mask s).length ≤ 12 := by
  simp only [pushedBytes, List.length_append]
  have : ∀ b (l : List Byte), (selected b l).length ≤ l.length := by intro b l; cases b <;> simp [selected]
  have h7 := this (mask.getLsbD 7) (pushedWord s.pc)
  have h6 := this (mask.getLsbD 6) (pushedWord (stackPointer (otherStack k) s))
  have h5 := this (mask.getLsbD 5) (pushedWord s.y)
  have h4 := this (mask.getLsbD 4) (pushedWord s.x)
  have h3 := this (mask.getLsbD 3) [s.dp]
  have h2 := this (mask.getLsbD 2) [s.b]
  have h1 := this (mask.getLsbD 1) [s.a]
  have h0 := this (mask.getLsbD 0) [s.cc]
  simp [pushedWord] at *
  omega

theorem call_eq (e : Word × State) :
    callTo e = (moveStack .s (e.2.s - 2) (storeDown (pushedWord e.2.pc) e.2.s e.2)).putPc e.1 := by
  simp only [callTo, push16_list, pushBytes_eq]
  rfl

/-! ### Reading up, and pulls -/

theorem memRead8_congr {l : List Part} (a : Word) {x y : State} (h : SameBut l x y) (hp : Part.params ∉ l) (hm :
    Part.mem ∉ l)
    (hv : Part.via ∉ l) (hd : Part.draws ∉ l) :
    (memRead8 a y).1 = (memRead8 a x).1 ∧ SameBut l (memRead8 a x).2 (memRead8 a y).2 := by
  have e1 : y.params = x.params := h _ hp
  have e2 : y.mem = x.mem := h _ hm
  have e3 : y.via = x.via := h _ hv
  have e4 : y.draws = x.draws := h _ hd
  unfold memRead8
  rw [e1]
  split
  · exact ⟨by simp [e2], h⟩
  · exact ⟨by simp [e2], h⟩
  · refine ⟨by simp [e1, e3, e4], ?_⟩
    rw [sameBut_iff] at h ⊢
    simpa [e1, e3, e4] using h
  · refine ⟨by simp [drawByte, e4], ?_⟩
    rw [sameBut_iff] at h ⊢
    simpa [e4] using h

/-- The pieces a pull in progress may have changed besides what its reads change. -/
def pullState : List Part := ccParts ++ [.a, .b, .dp, .x, .y, .u, .s, .pc, .nmiArmed]

/-- A pull in progress: `n` bytes have been read from the stack `k` since the state `s`. -/
structure Pulled (k : StackReg) (n : Nat) (s t : State) : Prop where
  sp : stackPointer k t = stackPointer k s + BitVec.ofNat 16 n
  same : SameBut (pullState) (readUp n (stackPointer k s) s).2 t

theorem readUp_succ (n : Nat) (sp : Word) (s : State) :
    readUp (n + 1) sp s = ((readUp n sp s).1 ++ [(memRead8 (sp + BitVec.ofNat 16 n) (readUp n sp s).2).1],
      (memRead8 (sp + BitVec.ofNat 16 n) (readUp n sp s).2).2) := by
  induction n generalizing sp s with
  | zero => simp [readUp]
  | succ n ih =>
    rw [readUp, ih (sp + 1)]
    have : sp + 1 + BitVec.ofNat 16 n = sp + BitVec.ofNat 16 (n + 1) := by
      apply BitVec.eq_of_toNat_eq; simp [BitVec.toNat_add]; omega
    rw [this]
    simp [readUp]

theorem readUp_length (n : Nat) (sp : Word) (s : State) : (readUp n sp s).1.length = n := by
  induction n generalizing sp s with
  | zero => rfl
  | succ n ih => simp [readUp, ih]

theorem readUp_get (n m j : Nat) (h : j < n) (sp : Word) (s : State) (hm : n ≤ m) :
    byteOf (readUp m sp s).1 j = byteOf (readUp n sp s).1 j := by
  induction m with
  | zero => omega
  | succ m ih =>
    by_cases e : n = m + 1
    · rw [e]
    · rw [readUp_succ]
      simp only [byteOf]
      rw [List.getD_append _ _ _ _ (by rw [readUp_length]; omega)]
      exact ih (by omega)

theorem byteOf_last (n : Nat) (sp : Word) (s : State) :
    byteOf (readUp (n + 1) sp s).1 n = (memRead8 (sp + BitVec.ofNat 16 n) (readUp n sp s).2).1 := by
  rw [readUp_succ]
  simp [byteOf, readUp_length]

theorem pull8_step {k : StackReg} {n : Nat} {s t : State} (h : Pulled k n s t) :
    (pull8 k t).1 = byteOf (readUp (n + 1) (stackPointer k s) s).1 n ∧ Pulled k (n + 1) s (pull8 k t).2 ∧
    SameBut [k.part, .via, .draws] t (pull8 k t).2 := by
  have hc := memRead8_congr (stackPointer k t) h.same (by simp [pullState, ccParts, flagParts]) (by simp [pullState,
      ccParts, flagParts])
    (by simp [pullState, ccParts, flagParts]) (by simp [pullState, ccParts, flagParts])
  refine ⟨?_, ⟨?_, ?_⟩, ?_⟩
  · simp only [pull8]
    rw [byteOf_last, ← h.sp, hc.1]
  · simp only [pull8, stackPointer_move, h.sp]
    apply BitVec.eq_of_toNat_eq; simp [BitVec.toNat_add]; omega
  · simp only [pull8]
    rw [readUp_succ, ← h.sp]
    refine (hc.2.trans (moveStack_frame k _ _)).mono ?_
    cases k <;> simp [pullState, ccParts, flagParts, StackReg.part]
  · exact ((memRead8_frame _ _).trans (moveStack_frame k _ _)).mono (by simp)

theorem pull16_step {k : StackReg} {n : Nat} {s t : State} (h : Pulled k n s t) :
    (pull16 k t).1 = wordOf (readUp (n + 2) (stackPointer k s) s).1 n ∧ Pulled k (n + 2) s (pull16 k t).2 ∧
    SameBut [k.part, .via, .draws] t (pull16 k t).2 := by
  obtain ⟨h1, h2, h3⟩ := pull8_step h
  obtain ⟨g1, g2, g3⟩ := pull8_step h2
  refine ⟨?_, g2, (h3.trans g3).mono (by simp)⟩
  simp only [pull16, wordOf, h1, g1]
  rw [readUp_get (n + 1) (n + 2) n (by omega) _ _ (by omega)]

theorem offset_succ (mask : Byte) (j : Nat) :
    maskOffset mask (j + 1) = maskOffset mask j + (if mask.getLsbD j then (if j < 4 then 1 else 2) else 0) := rfl

theorem offset_mono (mask : Byte) {i j : Nat} (h : i ≤ j) : maskOffset mask i ≤ maskOffset mask j := by
  induction j with
  | zero => have : i = 0 := by omega
            subst this; exact Nat.le_refl _
  | succ j ih =>
    by_cases e : i = j + 1
    · subst e; exact Nat.le_refl _
    · rw [offset_succ]; exact (ih (by omega)).trans (Nat.le_add_right _ _)

theorem when8_step {k : StackReg} {mask : Byte} {j : Nat} {s t : State} (h : Pulled k (maskOffset mask j) s t)
    (hj : j < 4)
    (put : Byte → State → State) (P : List Part) (get : State → Byte)
    (hput : ∀ v x, SameBut P x (put v x)) (hP : ∀ p ∈ P, p ∈ pullState) (hk : ∀ v x,
        stackPointer k (put v x) = stackPointer k x)
    (hget : ∀ v x, get (put v x) = v) {u : State} (hu : u = when (mask.getLsbD j) (pullInto8 k put) t) :
    Pulled k (maskOffset mask (j + 1)) s u ∧
    get u = (if mask.getLsbD j then byteOf (readUp (maskOffset mask 8) (stackPointer k s) s).1 (maskOffset mask j)
      else get t) := by
  subst hu
  cases hb : mask.getLsbD j with
  | false =>
    simp only [when, Bool.false_eq_true, if_false]
    refine ⟨?_, ?_⟩
    · rw [offset_succ, hb]; exact h
    · simp
  | true =>
    obtain ⟨h1, h2, -⟩ := pull8_step h
    have ho : maskOffset mask (j + 1) = maskOffset mask j + 1 := by rw [offset_succ, hb]; simp [hj]
    have hle := offset_mono mask (show j + 1 ≤ 8 by omega)
    simp only [when, if_true, pullInto8]
    refine ⟨?_, ?_⟩
    · rw [ho]
      exact ⟨by rw [hk, h2.sp], (h2.same.trans (hput _ _)).mono fun p hp =>
        (List.mem_append.mp hp).elim id (hP p)⟩
    · rw [hget, h1, readUp_get (maskOffset mask j + 1) (maskOffset mask 8) _ (by omega) _ _ (by omega)]

theorem when16_step {k : StackReg} {mask : Byte} {j : Nat} {s t : State} (h : Pulled k (maskOffset mask j) s t)
    (hj : 4 ≤ j) (hj8 : j < 8)
    (put : Word → State → State) (P : List Part) (get : State → Word)
    (hput : ∀ v x, SameBut P x (put v x)) (hP : ∀ p ∈ P, p ∈ pullState) (hk : ∀ v x,
        stackPointer k (put v x) = stackPointer k x)
    (hget : ∀ v x, get (put v x) = v) {u : State} (hu : u = when (mask.getLsbD j) (pullInto16 k put) t) :
    Pulled k (maskOffset mask (j + 1)) s u ∧
    get u = (if mask.getLsbD j then wordOf (readUp (maskOffset mask 8) (stackPointer k s) s).1 (maskOffset mask j)
      else get t) := by
  subst hu
  cases hb : mask.getLsbD j with
  | false =>
    simp only [when, Bool.false_eq_true, if_false]
    refine ⟨?_, ?_⟩
    · rw [offset_succ, hb]; exact h
    · simp
  | true =>
    obtain ⟨h1, h2, -⟩ := pull16_step h
    have ho : maskOffset mask (j + 1) = maskOffset mask j + 2 := by rw [offset_succ, hb]; simp [show ¬ j < 4 by omega]
    have hle := offset_mono mask (show j + 1 ≤ 8 by omega)
    simp only [when, if_true, pullInto16]
    refine ⟨?_, ?_⟩
    · rw [ho]
      exact ⟨by rw [hk, h2.sp], (h2.same.trans (hput _ _)).mono fun p hp =>
        (List.mem_append.mp hp).elim id (hP p)⟩
    · rw [hget, h1]
      simp only [wordOf]
      rw [readUp_get (maskOffset mask j + 2) (maskOffset mask 8) _ (by omega) _ _ (by omega),
          readUp_get (maskOffset mask j + 2) (maskOffset mask 8) (maskOffset mask j + 1) (by omega) _ _ (by omega)]

theorem readUp_frame (n : Nat) (sp : Word) (s : State) : SameBut [.via, .draws] s (readUp n sp s).2 := by
  induction n generalizing sp s with
  | zero => exact SameBut.refl _ _
  | succ n ih => exact ((memRead8_frame _ _).trans (ih _ _)).mono (by simp)

theorem putCc_frame (v : Byte) (x : State) : SameBut ccParts x (x.putCc v) := by
  rw [sameBut_iff]; simp [ccParts, flagParts]

theorem pulled0 (k : StackReg) (s : State) : Pulled k 0 s s :=
  ⟨by simp, SameBut.refl _ _⟩

/-- The pieces a pull into the other stack pointer changes. -/
def otherParts : StackReg → List Part
  | .s => [.u]
  | .u => [.s, .nmiArmed]

/-! ### Pulls of a mask -/

/-- A field that neither a bus read nor a move of the stack pointer `k` changes. -/
structure Steady {α : Type} (k : StackReg) (get : State → α) : Prop where
  move : ∀ v x, get (moveStack k v x) = get x
  read : ∀ a x, get (memRead8 a x).2 = get x

theorem Steady.skip8 {α : Type} {k : StackReg} {get : State → α} (h : Steady k get) {put : Byte → State → State}
    (hp : ∀ v x, get (put v x) = get x) (bit : Bool) (s : State) : get (when bit (pullInto8 k put) s) = get s := by
  cases bit
  · rfl
  · simp only [when, if_true, pullInto8, pull8, hp, h.move, h.read]

theorem Steady.skip16 {α : Type} {k : StackReg} {get : State → α} (h : Steady k get) {put : Word → State → State}
    (hp : ∀ v x, get (put v x) = get x) (bit : Bool) (s : State) : get (when bit (pullInto16 k put) s) = get s := by
  cases bit
  · rfl
  · simp only [when, if_true, pullInto16, pull16, pull8, hp, h.move, h.read]

theorem steady_cc (k : StackReg) : Steady k State.cc :=
  ⟨by intro v x; cases k <;> rfl, by intro a x; simp⟩
theorem steady_a (k : StackReg) : Steady k State.a :=
  ⟨by intro v x; cases k <;> rfl, by intro a x; simp⟩
theorem steady_b (k : StackReg) : Steady k State.b :=
  ⟨by intro v x; cases k <;> rfl, by intro a x; simp⟩
theorem steady_dp (k : StackReg) : Steady k State.dp :=
  ⟨by intro v x; cases k <;> rfl, by intro a x; simp⟩
theorem steady_x (k : StackReg) : Steady k State.x :=
  ⟨by intro v x; cases k <;> rfl, by intro a x; simp⟩
theorem steady_y (k : StackReg) : Steady k State.y :=
  ⟨by intro v x; cases k <;> rfl, by intro a x; simp⟩
theorem steady_pc (k : StackReg) : Steady k State.pc :=
  ⟨by intro v x; cases k <;> rfl, by intro a x; simp⟩
theorem steady_nmiArmed (k : StackReg) : Steady k State.nmiArmed :=
  ⟨by intro v x; cases k <;> rfl, by intro a x; simp⟩
theorem steady_other (k : StackReg) : Steady k (stackPointer (otherStack k)) :=
  ⟨by intro v x; cases k <;> rfl, by intro a x; cases k <;> simp [otherStack, stackPointer]⟩

/-- A pull with a mask, once: the bytes read, and every register after it. -/
theorem pullRegs_spec (k : StackReg) (mask : Byte) (s : State) :
    let size := maskOffset mask 8
    let l := (readUp size (stackPointer k s) s).1
    let read8 (bit : Nat) (old : Byte) : Byte := if mask.getLsbD bit then byteOf l (maskOffset mask bit) else old
    let read16 (bit : Nat) (old : Word) : Word := if mask.getLsbD bit then wordOf l (maskOffset mask bit) else old
    let t := pullRegs k mask s
    Pulled k size s t ∧
      t.cc = read8 0 s.cc ∧ t.a = read8 1 s.a ∧ t.b = read8 2 s.b ∧ t.dp = read8 3 s.dp ∧
      t.x = read16 4 s.x ∧ t.y = read16 5 s.y ∧
      stackPointer (otherStack k) t = read16 6 (stackPointer (otherStack k) s) ∧
      t.pc = read16 7 s.pc ∧
      t.nmiArmed = (s.nmiArmed || (k == .u && mask.getLsbD 6)) := by
  intro size l read8 read16 t
  obtain ⟨s1, e1⟩ : ∃ x, x = when (mask.getLsbD 0) (pullInto8 k State.putCc) s := ⟨_, rfl⟩
  obtain ⟨s2, e2⟩ : ∃ x, x = when (mask.getLsbD 1) (pullInto8 k State.putA) s1 := ⟨_, rfl⟩
  obtain ⟨s3, e3⟩ : ∃ x, x = when (mask.getLsbD 2) (pullInto8 k State.putB) s2 := ⟨_, rfl⟩
  obtain ⟨s4, e4⟩ : ∃ x, x = when (mask.getLsbD 3) (pullInto8 k State.putDp) s3 := ⟨_, rfl⟩
  obtain ⟨s5, e5⟩ : ∃ x, x = when (mask.getLsbD 4) (pullInto16 k State.putX) s4 := ⟨_, rfl⟩
  obtain ⟨s6, e6⟩ : ∃ x, x = when (mask.getLsbD 5) (pullInto16 k State.putY) s5 := ⟨_, rfl⟩
  obtain ⟨s7, e7⟩ : ∃ x, x = when (mask.getLsbD 6) (pullInto16 k (loadStack (otherStack k))) s6 := ⟨_, rfl⟩
  have e8 : t = when (mask.getLsbD 7) (pullInto16 k State.putPc) s7 := by
    rw [e7, e6, e5, e4, e3, e2, e1]
    rfl
  have harm : s7.nmiArmed = (s6.nmiArmed || (k == .u && mask.getLsbD 6)) := by
    rw [e7]
    cases mask.getLsbD 6
    · simp [when]
    · simp only [when, if_true, pullInto16]
      cases k
      · simp [otherStack, loadStack, pull16, pull8, moveStack]
      · simp [otherStack, loadStack]
  obtain ⟨p1, v1⟩ := when8_step (j := 0) (pulled0 k s) (by omega) State.putCc ccParts State.cc
    putCc_frame (by intro p hp; simp [pullState, hp]) (by intro v x; cases k <;> rfl)
    (fun _ _ => rfl) e1
  obtain ⟨p2, v2⟩ := when8_step (j := 1) p1 (by omega) State.putA [.a] State.a
    (by intro v x; rw [sameBut_iff]; simp) (by simp [pullState]) (by intro v x; cases k <;> rfl)
    (fun _ _ => rfl) e2
  obtain ⟨p3, v3⟩ := when8_step (j := 2) p2 (by omega) State.putB [.b] State.b
    (by intro v x; rw [sameBut_iff]; simp) (by simp [pullState]) (by intro v x; cases k <;> rfl)
    (fun _ _ => rfl) e3
  obtain ⟨p4, v4⟩ := when8_step (j := 3) p3 (by omega) State.putDp [.dp] State.dp
    (by intro v x; rw [sameBut_iff]; simp) (by simp [pullState]) (by intro v x; cases k <;> rfl)
    (fun _ _ => rfl) e4
  obtain ⟨p5, v5⟩ := when16_step (j := 4) p4 (by omega) (by omega) State.putX [.x] State.x
    (by intro v x; rw [sameBut_iff]; simp) (by simp [pullState]) (by intro v x; cases k <;> rfl)
    (fun _ _ => rfl) e5
  obtain ⟨p6, v6⟩ := when16_step (j := 5) p5 (by omega) (by omega) State.putY [.y] State.y
    (by intro v x; rw [sameBut_iff]; simp) (by simp [pullState]) (by intro v x; cases k <;> rfl)
    (fun _ _ => rfl) e6
  obtain ⟨p7, v7⟩ := when16_step (j :=
      6) p6 (by omega) (by omega) (loadStack (otherStack k)) (otherParts k) (stackPointer (otherStack k))
    (by intro v x; cases k <;> (rw [sameBut_iff]; simp [otherStack, loadStack,
        otherParts])) (by cases k <;> simp [pullState, otherParts]) (by intro v x; cases k <;> rfl)
    (by intro v x; cases k <;> rfl) e7
  obtain ⟨p8, v8⟩ := when16_step (j := 7) p7 (by omega) (by omega) State.putPc [.pc] State.pc
    (by intro v x; rw [sameBut_iff]; simp) (by simp [pullState]) (by intro v x; cases k <;> rfl)
    (fun _ _ => rfl) e8
  refine ⟨p8, ?_, ?_, ?_, ?_, ?_, ?_, ?_, ?_, ?_⟩
  · have h1 : t.cc = s1.cc := by
      rw [e8, (steady_cc k).skip16 (put := State.putPc) (fun _ _ => rfl),
        e7, (steady_cc k).skip16 (put := (loadStack (otherStack k))) (by intro v x; cases k <;> rfl),
        e6, (steady_cc k).skip16 (put := State.putY) (fun _ _ => rfl),
        e5, (steady_cc k).skip16 (put := State.putX) (fun _ _ => rfl),
        e4, (steady_cc k).skip8 (put := State.putDp) (fun _ _ => rfl),
        e3, (steady_cc k).skip8 (put := State.putB) (fun _ _ => rfl),
        e2, (steady_cc k).skip8 (put := State.putA) (fun _ _ => rfl)]
    exact h1.trans v1
  · have h1 : t.a = s2.a := by
      rw [e8, (steady_a k).skip16 (put := State.putPc) (fun _ _ => rfl),
        e7, (steady_a k).skip16 (put := (loadStack (otherStack k))) (by intro v x; cases k <;> rfl),
        e6, (steady_a k).skip16 (put := State.putY) (fun _ _ => rfl),
        e5, (steady_a k).skip16 (put := State.putX) (fun _ _ => rfl),
        e4, (steady_a k).skip8 (put := State.putDp) (fun _ _ => rfl),
        e3, (steady_a k).skip8 (put := State.putB) (fun _ _ => rfl)]
    have h2 : s1.a = s.a := by
      rw [e1, (steady_a k).skip8 (put := State.putCc) (fun _ _ => rfl)]
    exact (h1.trans v2).trans (by rw [h2])
  · have h1 : t.b = s3.b := by
      rw [e8, (steady_b k).skip16 (put := State.putPc) (fun _ _ => rfl),
        e7, (steady_b k).skip16 (put := (loadStack (otherStack k))) (by intro v x; cases k <;> rfl),
        e6, (steady_b k).skip16 (put := State.putY) (fun _ _ => rfl),
        e5, (steady_b k).skip16 (put := State.putX) (fun _ _ => rfl),
        e4, (steady_b k).skip8 (put := State.putDp) (fun _ _ => rfl)]
    have h2 : s2.b = s.b := by
      rw [e2, (steady_b k).skip8 (put := State.putA) (fun _ _ => rfl),
        e1, (steady_b k).skip8 (put := State.putCc) (fun _ _ => rfl)]
    exact (h1.trans v3).trans (by rw [h2])
  · have h1 : t.dp = s4.dp := by
      rw [e8, (steady_dp k).skip16 (put := State.putPc) (fun _ _ => rfl),
        e7, (steady_dp k).skip16 (put := (loadStack (otherStack k))) (by intro v x; cases k <;> rfl),
        e6, (steady_dp k).skip16 (put := State.putY) (fun _ _ => rfl),
        e5, (steady_dp k).skip16 (put := State.putX) (fun _ _ => rfl)]
    have h2 : s3.dp = s.dp := by
      rw [e3, (steady_dp k).skip8 (put := State.putB) (fun _ _ => rfl),
        e2, (steady_dp k).skip8 (put := State.putA) (fun _ _ => rfl),
        e1, (steady_dp k).skip8 (put := State.putCc) (fun _ _ => rfl)]
    exact (h1.trans v4).trans (by rw [h2])
  · have h1 : t.x = s5.x := by
      rw [e8, (steady_x k).skip16 (put := State.putPc) (fun _ _ => rfl),
        e7, (steady_x k).skip16 (put := (loadStack (otherStack k))) (by intro v x; cases k <;> rfl),
        e6, (steady_x k).skip16 (put := State.putY) (fun _ _ => rfl)]
    have h2 : s4.x = s.x := by
      rw [e4, (steady_x k).skip8 (put := State.putDp) (fun _ _ => rfl),
        e3, (steady_x k).skip8 (put := State.putB) (fun _ _ => rfl),
        e2, (steady_x k).skip8 (put := State.putA) (fun _ _ => rfl),
        e1, (steady_x k).skip8 (put := State.putCc) (fun _ _ => rfl)]
    exact (h1.trans v5).trans (by rw [h2])
  · have h1 : t.y = s6.y := by
      rw [e8, (steady_y k).skip16 (put := State.putPc) (fun _ _ => rfl),
        e7, (steady_y k).skip16 (put := (loadStack (otherStack k))) (by intro v x; cases k <;> rfl)]
    have h2 : s5.y = s.y := by
      rw [e5, (steady_y k).skip16 (put := State.putX) (fun _ _ => rfl),
        e4, (steady_y k).skip8 (put := State.putDp) (fun _ _ => rfl),
        e3, (steady_y k).skip8 (put := State.putB) (fun _ _ => rfl),
        e2, (steady_y k).skip8 (put := State.putA) (fun _ _ => rfl),
        e1, (steady_y k).skip8 (put := State.putCc) (fun _ _ => rfl)]
    exact (h1.trans v6).trans (by rw [h2])
  · have h1 : stackPointer (otherStack k) t = stackPointer (otherStack k) s7 := by
      rw [e8, (steady_other k).skip16 (put := State.putPc) (by intro v x; cases k <;> rfl)]
    have h2 : stackPointer (otherStack k) s6 = stackPointer (otherStack k) s := by
      rw [e6, (steady_other k).skip16 (put := State.putY) (by intro v x; cases k <;> rfl),
        e5, (steady_other k).skip16 (put := State.putX) (by intro v x; cases k <;> rfl),
        e4, (steady_other k).skip8 (put := State.putDp) (by intro v x; cases k <;> rfl),
        e3, (steady_other k).skip8 (put := State.putB) (by intro v x; cases k <;> rfl),
        e2, (steady_other k).skip8 (put := State.putA) (by intro v x; cases k <;> rfl),
        e1, (steady_other k).skip8 (put := State.putCc) (by intro v x; cases k <;> rfl)]
    exact (h1.trans v7).trans (by rw [h2])
  · have h2 : s7.pc = s.pc := by
      rw [e7, (steady_pc k).skip16 (put := (loadStack (otherStack k))) (by intro v x; cases k <;> rfl),
        e6, (steady_pc k).skip16 (put := State.putY) (fun _ _ => rfl),
        e5, (steady_pc k).skip16 (put := State.putX) (fun _ _ => rfl),
        e4, (steady_pc k).skip8 (put := State.putDp) (fun _ _ => rfl),
        e3, (steady_pc k).skip8 (put := State.putB) (fun _ _ => rfl),
        e2, (steady_pc k).skip8 (put := State.putA) (fun _ _ => rfl),
        e1, (steady_pc k).skip8 (put := State.putCc) (fun _ _ => rfl)]
    exact v8.trans (by rw [h2])
  · rw [e8, (steady_nmiArmed k).skip16 (put := State.putPc) (fun _ _ => rfl), harm,
      e6, (steady_nmiArmed k).skip16 (put := State.putY) (fun _ _ => rfl),
      e5, (steady_nmiArmed k).skip16 (put := State.putX) (fun _ _ => rfl),
      e4, (steady_nmiArmed k).skip8 (put := State.putDp) (fun _ _ => rfl),
      e3, (steady_nmiArmed k).skip8 (put := State.putB) (fun _ _ => rfl),
      e2, (steady_nmiArmed k).skip8 (put := State.putA) (fun _ _ => rfl),
      e1, (steady_nmiArmed k).skip8 (put := State.putCc) (fun _ _ => rfl)]

end Sys2Proof.Machine
end

