-- ==== Sys2Proof/Laws/Ram.lean ====
section
/-! SUPPORT. Stacks that lie in RAM: the bytes pushed stand in memory and are read back, and neither the VIA nor the count of
free values changes. -/

namespace Sys2Proof.Machine

theorem memRead8_of_plain {a : Word} {s : State} (h : isPlain s.params a = true) :
    memRead8 a s = (Memory.read s.mem a.toNat, s) := by
  simp only [isPlain, Bool.or_eq_true, beq_iff_eq] at h
  exact memRead8_plain h

theorem memWrite8_of_ram {a : Word} {v : Byte} {s : State} (h : isRam s.params a = true) :
    memWrite8 a v s = s.putMem (Memory.write s.mem a.toNat v) :=
  memWrite8_ram (by simpa [isRam] using h)

theorem memRead16_of_plain {a : Word} {s : State} (h : isPlain s.params a = true) (h' : isPlain s.params (a + 1) = true) :
    memRead16 a s = (wordAt s.mem a, s) := by
  simp only [memRead16, memRead8_of_plain h, memRead8_of_plain h', wordAt]

theorem isPlain_of_isRam {p : Params} {a : Word} (h : isRam p a = true) : isPlain p a = true := by
  simp only [isRam] at h
  simp [isPlain, h]

/-- The address `j` places above the lower end of what is pushed below `sp`. -/
theorem below_mem (n j : Nat) (sp : Word) (hn : n < 65536) (hj : j < n) :
    sp - BitVec.ofNat 16 n + BitVec.ofNat 16 j ∈ addressesUp n (sp - BitVec.ofNat 16 n) := by
  rw [mem_addressesUp _ _ _ hn]
  have := sp.isLt
  simp only [BitVec.toNat_sub, BitVec.toNat_add, BitVec.toNat_ofNat]
  omega

theorem storeDown_ram_frame {l : List Byte} {sp : Word} {s : State} (hl : l.length < 65536)
    (h : ∀ a ∈ addressesUp l.length (sp - BitVec.ofNat 16 l.length), isRam s.params a = true) :
    SameBut [.mem] s (storeDown l sp s) := by
  induction l generalizing sp s with
  | nil => exact SameBut.refl _ _
  | cons b l ih =>
    have e : sp - BitVec.ofNat 16 (b :: l).length + BitVec.ofNat 16 l.length = sp - 1 := by
      have := sp.isLt
      simp only [List.length_cons] at hl ⊢
      apply BitVec.eq_of_toNat_eq
      simp only [BitVec.toNat_sub, BitVec.toNat_add, BitVec.ofNat_eq_ofNat, BitVec.toNat_ofNat]
      omega
    have e' : sp - 1 - BitVec.ofNat 16 l.length = sp - BitVec.ofNat 16 (b :: l).length := by
      have := sp.isLt
      simp only [List.length_cons] at hl ⊢
      apply BitVec.eq_of_toNat_eq
      simp only [BitVec.toNat_sub, BitVec.ofNat_eq_ofNat, BitVec.toNat_ofNat]
      omega
    have h0 : isRam s.params (sp - 1) = true := by
      rw [← e]
      exact h _ (below_mem _ _ _ hl (by simp))
    have h1 : SameBut [.mem] s (memWrite8 (sp - 1) b s) := by
      rw [memWrite8_of_ram h0, sameBut_iff]
      simp
    refine (h1.trans (ih (by simp only [List.length_cons] at hl; omega) ?_)).mono (by simp)
    intro a ha
    rw [memWrite8_params]
    apply h
    rw [mem_addressesUp _ _ _ hl]
    rw [e', mem_addressesUp _ _ _ (by simp only [List.length_cons] at hl; omega)] at ha
    simp only [List.length_cons] at ha ⊢
    omega

/-- Byte `j` of what was pushed below `sp` stands at `sp - 1 - j`. -/
theorem storeDown_read {l : List Byte} {sp : Word} {s : State} {j : Nat} (hl : l.length < 65536)
    (hw : Memory.wf s.mem = true)
    (h : ∀ i < l.length, isRam s.params (sp - 1 - BitVec.ofNat 16 i) = true) (hj : j < l.length) :
    Memory.read (storeDown l sp s).mem (sp - 1 - BitVec.ofNat 16 j).toNat = l[j] := by
  induction l generalizing sp s j with
  | nil => simp at hj
  | cons b l ih =>
    simp only [List.length_cons] at hl hj
    have hsp := sp.isLt
    have h0 : isRam s.params (sp - 1) = true := by simpa using h 0 (by simp)
    cases j with
    | zero =>
      simp only [storeDown, List.getElem_cons_zero]
      have e : sp - 1 - BitVec.ofNat 16 0 = sp - 1 := by simp
      rw [e, storeDown_bytes l (sp - 1) _ (by omega), memWrite8_of_ram h0, putMem_mem]
      · exact Memory.read_write_same_wf hw
      · rw [mem_addressesUp _ _ _ (by omega)]
        simp only [BitVec.toNat_sub, BitVec.ofNat_eq_ofNat, BitVec.toNat_ofNat]
        omega
    | succ j =>
      have e : sp - 1 - BitVec.ofNat 16 (j + 1) = sp - 1 - 1 - BitVec.ofNat 16 j := by
        apply BitVec.eq_of_toNat_eq
        simp only [BitVec.toNat_sub, BitVec.ofNat_eq_ofNat, BitVec.toNat_ofNat]
        omega
      simp only [storeDown, List.getElem_cons_succ]
      rw [e]
      refine ih (by omega) (memWrite8_wf hw) ?_ (by omega)
      intro i hi
      rw [memWrite8_params]
      have e' : sp - 1 - 1 - BitVec.ofNat 16 i = sp - 1 - BitVec.ofNat 16 (i + 1) := by
        apply BitVec.eq_of_toNat_eq
        simp only [BitVec.toNat_sub, BitVec.ofNat_eq_ofNat, BitVec.toNat_ofNat]
        omega
      rw [e']
      exact h _ (by simp only [List.length_cons]; omega)

/-- Reading upwards through RAM or ROM reads the bytes held and changes nothing. -/
theorem readUp_plain {n : Nat} {sp : Word} {s : State} (h : ∀ a ∈ addressesUp n sp, isPlain s.params a = true) :
    readUp n sp s = ((addressesUp n sp).map fun a => Memory.read s.mem a.toNat, s) := by
  induction n generalizing sp with
  | zero => rfl
  | succ n ih =>
    simp only [addressesUp, List.mem_cons, forall_eq_or_imp] at h
    simp only [readUp, memRead8_of_plain h.1, ih h.2, addressesUp, List.map_cons]

/-- The bytes of the stack that a pull reads, in RAM or ROM. -/
theorem byteOf_readUp {n j : Nat} {sp : Word} {s : State} (h : ∀ a ∈ addressesUp n sp, isPlain s.params a = true)
    (hj : j < n) : byteOf (readUp n sp s).1 j = Memory.read s.mem (sp + BitVec.ofNat 16 j).toNat := by
  induction n generalizing sp j with
  | zero => omega
  | succ n ih =>
    simp only [addressesUp, List.mem_cons, forall_eq_or_imp] at h
    simp only [readUp, memRead8_of_plain h.1]
    cases j with
    | zero => simp [byteOf]
    | succ j =>
      have e : sp + BitVec.ofNat 16 (j + 1) = sp + 1 + BitVec.ofNat 16 j := by
        apply BitVec.eq_of_toNat_eq
        simp only [BitVec.toNat_add, BitVec.ofNat_eq_ofNat, BitVec.toNat_ofNat]
        omega
      rw [e, ← ih h.2 (by omega)]
      simp [byteOf]

end Sys2Proof.Machine
end

