-- ==== Sys2Proof/Laws/Interrupts.lean ====
section
/-! SUPPORT. The frames an interrupt stacks, as bytes written downwards, and the state an entry leaves. -/

namespace Sys2Proof.Machine

theorem storeDown_putCc (l : List Byte) (sp : Word) (v : Byte) (s : State) :
    storeDown l sp (s.putCc v) = (storeDown l sp s).putCc v := by
  induction l generalizing sp s with
  | nil => rfl
  | cons b l ih =>
    simp only [storeDown]
    rw [← ih]
    congr 1
    simp only [memWrite8, putCc_params]
    split <;> rfl

theorem entireFrame_length (cc : Byte) (s : State) : (entireFrame cc s).length = 12 := rfl

theorem pushedBytes_all (s : State) : pushedBytes .s 0xFF#8 s = entireFrame s.cc s := rfl

/-- The entire frame, stacked after CC has taken a value. -/
theorem pushEntire_putCc (v : Byte) (s : State) :
    pushEntire (s.putCc v) = ((storeDown (entireFrame v s) s.s s).putCc v).putS (s.s - 12) := by
  have e : pushedBytes .s 0xFF#8 (s.putCc v) = entireFrame v s := by
    rw [pushedBytes_all]
    simp only [entireFrame, putCc_cc, putCc_a, putCc_b, putCc_dp, putCc_x, putCc_y, putCc_u, putCc_pc]
  rw [pushEntire, pushRegs_eq, e, pushBytes_eq, entireFrame_length, storeDown_putCc]
  simp only [stackPointer, putCc_s, moveStack, BitVec.ofNat_eq_ofNat]

/-- The fast frame, stacked after CC has taken a value. -/
theorem pushFast_putCc (v : Byte) (s : State) :
    push8 .s (s.putCc v).cc (push16 .s (s.putCc v).pc (s.putCc v)) =
      ((storeDown (pushedWord s.pc ++ [v]) s.s s).putCc v).putS (s.s - 3) := by
  have e : (pushedWord s.pc ++ [v]).length = 3 := rfl
  rw [push16_list, push8_list, ← pushBytes_append, pushBytes_eq, putCc_cc, putCc_pc, e, storeDown_putCc]
  simp only [stackPointer, putCc_s, moveStack, BitVec.ofNat_eq_ofNat]

/-- The bytes an interrupt stacks and the CC it stacks them with. -/
def frameBytes (k : Interrupt) (s : State) : List Byte :=
  match k with
  | .firq => pushedWord s.pc ++ [putE false s.cc]
  | .nmi | .irq | .swi | .swi2 | .swi3 => entireFrame (putE true s.cc) s

theorem frameBytes_length (k : Interrupt) (s : State) :
    (frameBytes k s).length = if k = .firq then 3 else 12 := by
  cases k <;> rfl

theorem stackFrame_eq (k : Interrupt) (s : State) : stackFrame k s =
    ((storeDown (frameBytes k s) s.s s).putCc (putE (k != .firq) s.cc)).putS
      (s.s - BitVec.ofNat 16 (frameBytes k s).length) := by
  cases k
  case firq => exact pushFast_putCc _ s
  all_goals exact pushEntire_putCc _ s

/-- NMI clears its latch; the other entries leave it. -/
theorem nmi_latch (k : Interrupt) (s : State) :
    (if k = .nmi then s.putNmiPending false else s) = s.putNmiPending (s.nmiPending && k != .nmi) := by
  cases k
  case nmi => rw [if_pos rfl]; congr 1; exact (Bool.and_false _).symm
  all_goals
    rw [if_neg (by decide)]
    show s = s.putNmiPending (s.nmiPending && true)
    rw [Bool.and_true]
    rfl

/-- An entry with stacking: the frame, the masks, the NMI latch, the vector. -/
theorem enterInterrupt_stack (k : Interrupt) (s : State) :
    enterInterrupt k true s = loadVector (vectorAddress k)
      ((((storeDown (frameBytes k s) s.s s).putCc (maskOnEntry k (putE (k != .firq) s.cc))).putS
        (s.s - BitVec.ofNat 16 (frameBytes k s).length)).putNmiPending (s.nmiPending && k != .nmi)) := by
  have hn : (storeDown (frameBytes k s) s.s s).nmiPending = s.nmiPending :=
    storeDown_frame _ _ s .nmiPending (by simp)
  unfold enterInterrupt
  simp only [if_true, stackFrame_eq, nmi_latch, putS_cc, putCc_cc, putCc_nmiPending, putS_nmiPending]
  rw [hn]
  generalize storeDown (frameBytes k s) s.s s = x
  rfl

/-- An entry without stacking, as from `CWAI`. -/
theorem enterInterrupt_noStack (k : Interrupt) (s : State) :
    enterInterrupt k false s = loadVector (vectorAddress k)
      ((s.putCc (maskOnEntry k s.cc)).putNmiPending (s.nmiPending && k != .nmi)) := by
  unfold enterInterrupt
  simp only [Bool.false_eq_true, if_false, nmi_latch, putCc_nmiPending]

/-- Loading a vector that lies in RAM or ROM changes PC alone. -/
theorem loadVector_plain {v : Word} {s : State} (h : isPlain s.params v = true) (h' : isPlain s.params (v + 1) = true) :
    loadVector v s = s.putPc (wordAt s.mem v) := by
  simp only [loadVector, memRead16_of_plain h h']

/-- The vectors are those of the table of 60_exceptions R202. -/
theorem vectorAddress_eq (k : Interrupt) : vectorAddress k = vectorOf k := by cases k <;> rfl

theorem maskOnEntry_flags (k : Interrupt) (cc : Byte) :
    ccE (maskOnEntry k cc) = ccE cc ∧
    ccI (maskOnEntry k cc) = (ccI cc || (k == .nmi || k == .firq || k == .irq || k == .swi)) ∧
    ccF (maskOnEntry k cc) = (ccF cc || (k == .nmi || k == .firq || k == .swi)) ∧
    ccH (maskOnEntry k cc) = ccH cc ∧ ccN (maskOnEntry k cc) = ccN cc ∧ ccZ (maskOnEntry k cc) = ccZ cc ∧
    ccV (maskOnEntry k cc) = ccV cc ∧ ccC (maskOnEntry k cc) = ccC cc := by
  cases k <;> simp [maskOnEntry]

end Sys2Proof.Machine
end

