-- ==== Sys2Proof/Laws/PerInstr.lean ====
section
/-! SUPPORT. The per-instruction family `Length`: an instruction has one to five bytes (30_encoding R112). -/

namespace Sys2Proof.Laws.Length

/-- The encoding of a well-formed instruction has one to five bytes. -/
def Statement (i : Instr) : Prop := i.wf = true → 1 ≤ (encode i).length ∧ (encode i).length ≤ 5

theorem of_length {i : Instr} (n : Nat) (h : (encode i).length = n) (hn : (Nat.ble 1 n && Nat.ble n 5) = true) :
    Statement i := fun _ => by
  rw [Bool.and_eq_true, Nat.ble_eq, Nat.ble_eq] at hn
  rw [h]
  exact hn

/-- An indexed operand has one to three bytes. -/
theorem indexed_length (ix : Indexed) : 1 ≤ (encodeIndexed ix).length ∧ (encodeIndexed ix).length ≤ 3 := by
  cases ix <;> simp [encodeIndexed]

theorem of_indexed {i : Instr} {ix : Indexed} (n : Nat) (h : (encode i).length = (encodeIndexed ix).length + n)
    (hn : Nat.ble n 2 = true) : Statement i := fun _ => by
  rw [Nat.ble_eq] at hn
  have := indexed_length ix
  rw [h]
  omega

theorem negDirect (dd : Byte) : Statement (.negDirect dd) := of_length 2 rfl rfl
theorem nop01 : Statement .nop01 := of_length 1 rfl rfl
theorem nop02 : Statement .nop02 := of_length 1 rfl rfl
theorem comDirect (dd : Byte) : Statement (.comDirect dd) := of_length 2 rfl rfl
theorem lsrDirect (dd : Byte) : Statement (.lsrDirect dd) := of_length 2 rfl rfl
theorem nop05 : Statement .nop05 := of_length 1 rfl rfl
theorem rorDirect (dd : Byte) : Statement (.rorDirect dd) := of_length 2 rfl rfl
theorem asrDirect (dd : Byte) : Statement (.asrDirect dd) := of_length 2 rfl rfl
theorem aslDirect (dd : Byte) : Statement (.aslDirect dd) := of_length 2 rfl rfl
theorem rolDirect (dd : Byte) : Statement (.rolDirect dd) := of_length 2 rfl rfl
theorem decDirect (dd : Byte) : Statement (.decDirect dd) := of_length 2 rfl rfl
theorem sev : Statement .sev := of_length 1 rfl rfl
theorem incDirect (dd : Byte) : Statement (.incDirect dd) := of_length 2 rfl rfl
theorem tstDirect (dd : Byte) : Statement (.tstDirect dd) := of_length 2 rfl rfl
theorem jmpDirect (dd : Byte) : Statement (.jmpDirect dd) := of_length 2 rfl rfl
theorem clrDirect (dd : Byte) : Statement (.clrDirect dd) := of_length 2 rfl rfl
theorem nop : Statement .nop := of_length 1 rfl rfl
theorem sync : Statement .sync := of_length 1 rfl rfl
theorem unassigned14 : Statement .unassigned14 := of_length 1 rfl rfl
theorem unassigned15 : Statement .unassigned15 := of_length 1 rfl rfl
theorem lbra (disp : Word) : Statement (.lbra disp) := of_length 3 rfl rfl
theorem lbsr (disp : Word) : Statement (.lbsr disp) := of_length 3 rfl rfl
theorem nop18 : Statement .nop18 := of_length 1 rfl rfl
theorem daa : Statement .daa := of_length 1 rfl rfl
theorem orcc (ii : Byte) : Statement (.orcc ii) := of_length 2 rfl rfl
theorem aba : Statement .aba := of_length 1 rfl rfl
theorem andcc (ii : Byte) : Statement (.andcc ii) := of_length 2 rfl rfl
theorem sex : Statement .sex := of_length 1 rfl rfl
theorem exg (r1 : RegCode) (r2 : RegCode) : Statement (.exg r1 r2) := of_length 2 rfl rfl
theorem tfr (r1 : RegCode) (r2 : RegCode) : Statement (.tfr r1 r2) := of_length 2 rfl rfl
theorem bra (rr : Byte) : Statement (.bra rr) := of_length 2 rfl rfl
theorem brn (rr : Byte) : Statement (.brn rr) := of_length 2 rfl rfl
theorem bhi (rr : Byte) : Statement (.bhi rr) := of_length 2 rfl rfl
theorem bls (rr : Byte) : Statement (.bls rr) := of_length 2 rfl rfl
theorem bcc (rr : Byte) : Statement (.bcc rr) := of_length 2 rfl rfl
theorem bcs (rr : Byte) : Statement (.bcs rr) := of_length 2 rfl rfl
theorem bne (rr : Byte) : Statement (.bne rr) := of_length 2 rfl rfl
theorem beq (rr : Byte) : Statement (.beq rr) := of_length 2 rfl rfl
theorem bvc (rr : Byte) : Statement (.bvc rr) := of_length 2 rfl rfl
theorem bvs (rr : Byte) : Statement (.bvs rr) := of_length 2 rfl rfl
theorem bpl (rr : Byte) : Statement (.bpl rr) := of_length 2 rfl rfl
theorem bmi (rr : Byte) : Statement (.bmi rr) := of_length 2 rfl rfl
theorem bge (rr : Byte) : Statement (.bge rr) := of_length 2 rfl rfl
theorem blt (rr : Byte) : Statement (.blt rr) := of_length 2 rfl rfl
theorem bgt (rr : Byte) : Statement (.bgt rr) := of_length 2 rfl rfl
theorem ble (rr : Byte) : Statement (.ble rr) := of_length 2 rfl rfl
theorem leax (ix : Indexed) : Statement (.leax ix) := of_indexed (ix := ix) 1 rfl rfl
theorem leay (ix : Indexed) : Statement (.leay ix) := of_indexed (ix := ix) 1 rfl rfl
theorem leas (ix : Indexed) : Statement (.leas ix) := of_indexed (ix := ix) 1 rfl rfl
theorem leau (ix : Indexed) : Statement (.leau ix) := of_indexed (ix := ix) 1 rfl rfl
theorem pshs (mask : Byte) : Statement (.pshs mask) := of_length 2 rfl rfl
theorem puls (mask : Byte) : Statement (.puls mask) := of_length 2 rfl rfl
theorem pshu (mask : Byte) : Statement (.pshu mask) := of_length 2 rfl rfl
theorem pulu (mask : Byte) : Statement (.pulu mask) := of_length 2 rfl rfl
theorem nop38 : Statement .nop38 := of_length 1 rfl rfl
theorem rts : Statement .rts := of_length 1 rfl rfl
theorem abx : Statement .abx := of_length 1 rfl rfl
theorem rti : Statement .rti := of_length 1 rfl rfl
theorem cwai (ii : Byte) : Statement (.cwai ii) := of_length 2 rfl rfl
theorem mul : Statement .mul := of_length 1 rfl rfl
theorem wai : Statement .wai := of_length 1 rfl rfl
theorem swi : Statement .swi := of_length 1 rfl rfl
theorem nega : Statement .nega := of_length 1 rfl rfl
theorem unassigned41 : Statement .unassigned41 := of_length 1 rfl rfl
theorem unassigned42 : Statement .unassigned42 := of_length 1 rfl rfl
theorem coma : Statement .coma := of_length 1 rfl rfl
theorem lsra : Statement .lsra := of_length 1 rfl rfl
theorem nop45 : Statement .nop45 := of_length 1 rfl rfl
theorem rora : Statement .rora := of_length 1 rfl rfl
theorem asra : Statement .asra := of_length 1 rfl rfl
theorem asla : Statement .asla := of_length 1 rfl rfl
theorem rola : Statement .rola := of_length 1 rfl rfl
theorem deca : Statement .deca := of_length 1 rfl rfl
theorem unassigned4B : Statement .unassigned4B := of_length 1 rfl rfl
theorem inca : Statement .inca := of_length 1 rfl rfl
theorem tsta : Statement .tsta := of_length 1 rfl rfl
theorem nop4E : Statement .nop4E := of_length 1 rfl rfl
theorem clra : Statement .clra := of_length 1 rfl rfl
theorem negb : Statement .negb := of_length 1 rfl rfl
theorem unassigned51 : Statement .unassigned51 := of_length 1 rfl rfl
theorem nop52 : Statement .nop52 := of_length 1 rfl rfl
theorem comb : Statement .comb := of_length 1 rfl rfl
theorem lsrb : Statement .lsrb := of_length 1 rfl rfl
theorem unassigned55 : Statement .unassigned55 := of_length 1 rfl rfl
theorem rorb : Statement .rorb := of_length 1 rfl rfl
theorem asrb : Statement .asrb := of_length 1 rfl rfl
theorem aslb : Statement .aslb := of_length 1 rfl rfl
theorem rolb : Statement .rolb := of_length 1 rfl rfl
theorem decb : Statement .decb := of_length 1 rfl rfl
theorem unassigned5B : Statement .unassigned5B := of_length 1 rfl rfl
theorem incb : Statement .incb := of_length 1 rfl rfl
theorem tstb : Statement .tstb := of_length 1 rfl rfl
theorem unassigned5E : Statement .unassigned5E := of_length 1 rfl rfl
theorem clrb : Statement .clrb := of_length 1 rfl rfl
theorem negIdx (ix : Indexed) : Statement (.negIdx ix) := of_indexed (ix := ix) 1 rfl rfl
theorem unassigned61 : Statement .unassigned61 := of_length 1 rfl rfl
theorem unassigned62 : Statement .unassigned62 := of_length 1 rfl rfl
theorem comIdx (ix : Indexed) : Statement (.comIdx ix) := of_indexed (ix := ix) 1 rfl rfl
theorem lsrIdx (ix : Indexed) : Statement (.lsrIdx ix) := of_indexed (ix := ix) 1 rfl rfl
theorem unassigned65 : Statement .unassigned65 := of_length 1 rfl rfl
theorem rorIdx (ix : Indexed) : Statement (.rorIdx ix) := of_indexed (ix := ix) 1 rfl rfl
theorem asrIdx (ix : Indexed) : Statement (.asrIdx ix) := of_indexed (ix := ix) 1 rfl rfl
theorem aslIdx (ix : Indexed) : Statement (.aslIdx ix) := of_indexed (ix := ix) 1 rfl rfl
theorem rolIdx (ix : Indexed) : Statement (.rolIdx ix) := of_indexed (ix := ix) 1 rfl rfl
theorem decIdx (ix : Indexed) : Statement (.decIdx ix) := of_indexed (ix := ix) 1 rfl rfl
theorem unassigned6B : Statement .unassigned6B := of_length 1 rfl rfl
theorem incIdx (ix : Indexed) : Statement (.incIdx ix) := of_indexed (ix := ix) 1 rfl rfl
theorem tstIdx (ix : Indexed) : Statement (.tstIdx ix) := of_indexed (ix := ix) 1 rfl rfl
theorem jmpIdx (ix : Indexed) : Statement (.jmpIdx ix) := of_indexed (ix := ix) 1 rfl rfl
theorem clrIdx (ix : Indexed) : Statement (.clrIdx ix) := of_indexed (ix := ix) 1 rfl rfl
theorem negExt (ea : Word) : Statement (.negExt ea) := of_length 3 rfl rfl
theorem unassigned71 : Statement .unassigned71 := of_length 1 rfl rfl
theorem unassigned72 : Statement .unassigned72 := of_length 1 rfl rfl
theorem comExt (ea : Word) : Statement (.comExt ea) := of_length 3 rfl rfl
theorem lsrExt (ea : Word) : Statement (.lsrExt ea) := of_length 3 rfl rfl
theorem unassigned75 : Statement .unassigned75 := of_length 1 rfl rfl
theorem rorExt (ea : Word) : Statement (.rorExt ea) := of_length 3 rfl rfl
theorem asrExt (ea : Word) : Statement (.asrExt ea) := of_length 3 rfl rfl
theorem aslExt (ea : Word) : Statement (.aslExt ea) := of_length 3 rfl rfl
theorem rolExt (ea : Word) : Statement (.rolExt ea) := of_length 3 rfl rfl
theorem decExt (ea : Word) : Statement (.decExt ea) := of_length 3 rfl rfl
theorem nop7B : Statement .nop7B := of_length 1 rfl rfl
theorem incExt (ea : Word) : Statement (.incExt ea) := of_length 3 rfl rfl
theorem tstExt (ea : Word) : Statement (.tstExt ea) := of_length 3 rfl rfl
theorem jmpExt (ea : Word) : Statement (.jmpExt ea) := of_length 3 rfl rfl
theorem clrExt (ea : Word) : Statement (.clrExt ea) := of_length 3 rfl rfl
theorem subaImm (ii : Byte) : Statement (.subaImm ii) := of_length 2 rfl rfl
theorem cmpaImm (ii : Byte) : Statement (.cmpaImm ii) := of_length 2 rfl rfl
theorem sbcaImm (ii : Byte) : Statement (.sbcaImm ii) := of_length 2 rfl rfl
theorem subdImm (imm : Word) : Statement (.subdImm imm) := of_length 3 rfl rfl
theorem andaImm (ii : Byte) : Statement (.andaImm ii) := of_length 2 rfl rfl
theorem bitaImm (ii : Byte) : Statement (.bitaImm ii) := of_length 2 rfl rfl
theorem ldaImm (ii : Byte) : Statement (.ldaImm ii) := of_length 2 rfl rfl
theorem unassigned87 : Statement .unassigned87 := of_length 1 rfl rfl
theorem eoraImm (ii : Byte) : Statement (.eoraImm ii) := of_length 2 rfl rfl
theorem adcaImm (ii : Byte) : Statement (.adcaImm ii) := of_length 2 rfl rfl
theorem oraImm (ii : Byte) : Statement (.oraImm ii) := of_length 2 rfl rfl
theorem addaImm (ii : Byte) : Statement (.addaImm ii) := of_length 2 rfl rfl
theorem cmpxImm (imm : Word) : Statement (.cmpxImm imm) := of_length 3 rfl rfl
theorem bsr (rr : Byte) : Statement (.bsr rr) := of_length 2 rfl rfl
theorem ldxImm (imm : Word) : Statement (.ldxImm imm) := of_length 3 rfl rfl
theorem nop8F : Statement .nop8F := of_length 1 rfl rfl
theorem subaDirect (dd : Byte) : Statement (.subaDirect dd) := of_length 2 rfl rfl
theorem cmpaDirect (dd : Byte) : Statement (.cmpaDirect dd) := of_length 2 rfl rfl
theorem sbcaDirect (dd : Byte) : Statement (.sbcaDirect dd) := of_length 2 rfl rfl
theorem subdDirect (dd : Byte) : Statement (.subdDirect dd) := of_length 2 rfl rfl
theorem andaDirect (dd : Byte) : Statement (.andaDirect dd) := of_length 2 rfl rfl
theorem bitaDirect (dd : Byte) : Statement (.bitaDirect dd) := of_length 2 rfl rfl
theorem ldaDirect (dd : Byte) : Statement (.ldaDirect dd) := of_length 2 rfl rfl
theorem staDirect (dd : Byte) : Statement (.staDirect dd) := of_length 2 rfl rfl
theorem eoraDirect (dd : Byte) : Statement (.eoraDirect dd) := of_length 2 rfl rfl
theorem adcaDirect (dd : Byte) : Statement (.adcaDirect dd) := of_length 2 rfl rfl
theorem oraDirect (dd : Byte) : Statement (.oraDirect dd) := of_length 2 rfl rfl
theorem addaDirect (dd : Byte) : Statement (.addaDirect dd) := of_length 2 rfl rfl
theorem cmpxDirect (dd : Byte) : Statement (.cmpxDirect dd) := of_length 2 rfl rfl
theorem jsrDirect (dd : Byte) : Statement (.jsrDirect dd) := of_length 2 rfl rfl
theorem ldxDirect (dd : Byte) : Statement (.ldxDirect dd) := of_length 2 rfl rfl
theorem stxDirect (dd : Byte) : Statement (.stxDirect dd) := of_length 2 rfl rfl
theorem subaIdx (ix : Indexed) : Statement (.subaIdx ix) := of_indexed (ix := ix) 1 rfl rfl
theorem cmpaIdx (ix : Indexed) : Statement (.cmpaIdx ix) := of_indexed (ix := ix) 1 rfl rfl
theorem sbcaIdx (ix : Indexed) : Statement (.sbcaIdx ix) := of_indexed (ix := ix) 1 rfl rfl
theorem subdIdx (ix : Indexed) : Statement (.subdIdx ix) := of_indexed (ix := ix) 1 rfl rfl
theorem andaIdx (ix : Indexed) : Statement (.andaIdx ix) := of_indexed (ix := ix) 1 rfl rfl
theorem bitaIdx (ix : Indexed) : Statement (.bitaIdx ix) := of_indexed (ix := ix) 1 rfl rfl
theorem ldaIdx (ix : Indexed) : Statement (.ldaIdx ix) := of_indexed (ix := ix) 1 rfl rfl
theorem staIdx (ix : Indexed) : Statement (.staIdx ix) := of_indexed (ix := ix) 1 rfl rfl
theorem eoraIdx (ix : Indexed) : Statement (.eoraIdx ix) := of_indexed (ix := ix) 1 rfl rfl
theorem adcaIdx (ix : Indexed) : Statement (.adcaIdx ix) := of_indexed (ix := ix) 1 rfl rfl
theorem oraIdx (ix : Indexed) : Statement (.oraIdx ix) := of_indexed (ix := ix) 1 rfl rfl
theorem addaIdx (ix : Indexed) : Statement (.addaIdx ix) := of_indexed (ix := ix) 1 rfl rfl
theorem cmpxIdx (ix : Indexed) : Statement (.cmpxIdx ix) := of_indexed (ix := ix) 1 rfl rfl
theorem jsrIdx (ix : Indexed) : Statement (.jsrIdx ix) := of_indexed (ix := ix) 1 rfl rfl
theorem ldxIdx (ix : Indexed) : Statement (.ldxIdx ix) := of_indexed (ix := ix) 1 rfl rfl
theorem stxIdx (ix : Indexed) : Statement (.stxIdx ix) := of_indexed (ix := ix) 1 rfl rfl
theorem subaExt (ea : Word) : Statement (.subaExt ea) := of_length 3 rfl rfl
theorem cmpaExt (ea : Word) : Statement (.cmpaExt ea) := of_length 3 rfl rfl
theorem sbcaExt (ea : Word) : Statement (.sbcaExt ea) := of_length 3 rfl rfl
theorem subdExt (ea : Word) : Statement (.subdExt ea) := of_length 3 rfl rfl
theorem andaExt (ea : Word) : Statement (.andaExt ea) := of_length 3 rfl rfl
theorem bitaExt (ea : Word) : Statement (.bitaExt ea) := of_length 3 rfl rfl
theorem ldaExt (ea : Word) : Statement (.ldaExt ea) := of_length 3 rfl rfl
theorem staExt (ea : Word) : Statement (.staExt ea) := of_length 3 rfl rfl
theorem eoraExt (ea : Word) : Statement (.eoraExt ea) := of_length 3 rfl rfl
theorem adcaExt (ea : Word) : Statement (.adcaExt ea) := of_length 3 rfl rfl
theorem oraExt (ea : Word) : Statement (.oraExt ea) := of_length 3 rfl rfl
theorem addaExt (ea : Word) : Statement (.addaExt ea) := of_length 3 rfl rfl
theorem cmpxExt (ea : Word) : Statement (.cmpxExt ea) := of_length 3 rfl rfl
theorem jsrExt (ea : Word) : Statement (.jsrExt ea) := of_length 3 rfl rfl
theorem ldxExt (ea : Word) : Statement (.ldxExt ea) := of_length 3 rfl rfl
theorem stxExt (ea : Word) : Statement (.stxExt ea) := of_length 3 rfl rfl
theorem subbImm (ii : Byte) : Statement (.subbImm ii) := of_length 2 rfl rfl
theorem cmpbImm (ii : Byte) : Statement (.cmpbImm ii) := of_length 2 rfl rfl
theorem sbcbImm (ii : Byte) : Statement (.sbcbImm ii) := of_length 2 rfl rfl
theorem adddImm (imm : Word) : Statement (.adddImm imm) := of_length 3 rfl rfl
theorem andbImm (ii : Byte) : Statement (.andbImm ii) := of_length 2 rfl rfl
theorem bitbImm (ii : Byte) : Statement (.bitbImm ii) := of_length 2 rfl rfl
theorem ldbImm (ii : Byte) : Statement (.ldbImm ii) := of_length 2 rfl rfl
theorem unassignedC7 : Statement .unassignedC7 := of_length 1 rfl rfl
theorem eorbImm (ii : Byte) : Statement (.eorbImm ii) := of_length 2 rfl rfl
theorem adcbImm (ii : Byte) : Statement (.adcbImm ii) := of_length 2 rfl rfl
theorem orbImm (ii : Byte) : Statement (.orbImm ii) := of_length 2 rfl rfl
theorem addbImm (ii : Byte) : Statement (.addbImm ii) := of_length 2 rfl rfl
theorem lddImm (imm : Word) : Statement (.lddImm imm) := of_length 3 rfl rfl
theorem unassignedCD : Statement .unassignedCD := of_length 1 rfl rfl
theorem lduImm (imm : Word) : Statement (.lduImm imm) := of_length 3 rfl rfl
theorem unassignedCF : Statement .unassignedCF := of_length 1 rfl rfl
theorem subbDirect (dd : Byte) : Statement (.subbDirect dd) := of_length 2 rfl rfl
theorem cmpbDirect (dd : Byte) : Statement (.cmpbDirect dd) := of_length 2 rfl rfl
theorem sbcbDirect (dd : Byte) : Statement (.sbcbDirect dd) := of_length 2 rfl rfl
theorem adddDirect (dd : Byte) : Statement (.adddDirect dd) := of_length 2 rfl rfl
theorem andbDirect (dd : Byte) : Statement (.andbDirect dd) := of_length 2 rfl rfl
theorem bitbDirect (dd : Byte) : Statement (.bitbDirect dd) := of_length 2 rfl rfl
theorem ldbDirect (dd : Byte) : Statement (.ldbDirect dd) := of_length 2 rfl rfl
theorem stbDirect (dd : Byte) : Statement (.stbDirect dd) := of_length 2 rfl rfl
theorem eorbDirect (dd : Byte) : Statement (.eorbDirect dd) := of_length 2 rfl rfl
theorem adcbDirect (dd : Byte) : Statement (.adcbDirect dd) := of_length 2 rfl rfl
theorem orbDirect (dd : Byte) : Statement (.orbDirect dd) := of_length 2 rfl rfl
theorem addbDirect (dd : Byte) : Statement (.addbDirect dd) := of_length 2 rfl rfl
theorem lddDirect (dd : Byte) : Statement (.lddDirect dd) := of_length 2 rfl rfl
theorem stdDirect (dd : Byte) : Statement (.stdDirect dd) := of_length 2 rfl rfl
theorem lduDirect (dd : Byte) : Statement (.lduDirect dd) := of_length 2 rfl rfl
theorem stuDirect (dd : Byte) : Statement (.stuDirect dd) := of_length 2 rfl rfl
theorem subbIdx (ix : Indexed) : Statement (.subbIdx ix) := of_indexed (ix := ix) 1 rfl rfl
theorem cmpbIdx (ix : Indexed) : Statement (.cmpbIdx ix) := of_indexed (ix := ix) 1 rfl rfl
theorem sbcbIdx (ix : Indexed) : Statement (.sbcbIdx ix) := of_indexed (ix := ix) 1 rfl rfl
theorem adddIdx (ix : Indexed) : Statement (.adddIdx ix) := of_indexed (ix := ix) 1 rfl rfl
theorem andbIdx (ix : Indexed) : Statement (.andbIdx ix) := of_indexed (ix := ix) 1 rfl rfl
theorem bitbIdx (ix : Indexed) : Statement (.bitbIdx ix) := of_indexed (ix := ix) 1 rfl rfl
theorem ldbIdx (ix : Indexed) : Statement (.ldbIdx ix) := of_indexed (ix := ix) 1 rfl rfl
theorem stbIdx (ix : Indexed) : Statement (.stbIdx ix) := of_indexed (ix := ix) 1 rfl rfl
theorem eorbIdx (ix : Indexed) : Statement (.eorbIdx ix) := of_indexed (ix := ix) 1 rfl rfl
theorem adcbIdx (ix : Indexed) : Statement (.adcbIdx ix) := of_indexed (ix := ix) 1 rfl rfl
theorem orbIdx (ix : Indexed) : Statement (.orbIdx ix) := of_indexed (ix := ix) 1 rfl rfl
theorem addbIdx (ix : Indexed) : Statement (.addbIdx ix) := of_indexed (ix := ix) 1 rfl rfl
theorem lddIdx (ix : Indexed) : Statement (.lddIdx ix) := of_indexed (ix := ix) 1 rfl rfl
theorem stdIdx (ix : Indexed) : Statement (.stdIdx ix) := of_indexed (ix := ix) 1 rfl rfl
theorem lduIdx (ix : Indexed) : Statement (.lduIdx ix) := of_indexed (ix := ix) 1 rfl rfl
theorem stuIdx (ix : Indexed) : Statement (.stuIdx ix) := of_indexed (ix := ix) 1 rfl rfl
theorem subbExt (ea : Word) : Statement (.subbExt ea) := of_length 3 rfl rfl
theorem cmpbExt (ea : Word) : Statement (.cmpbExt ea) := of_length 3 rfl rfl
theorem sbcbExt (ea : Word) : Statement (.sbcbExt ea) := of_length 3 rfl rfl
theorem adddExt (ea : Word) : Statement (.adddExt ea) := of_length 3 rfl rfl
theorem andbExt (ea : Word) : Statement (.andbExt ea) := of_length 3 rfl rfl
theorem bitbExt (ea : Word) : Statement (.bitbExt ea) := of_length 3 rfl rfl
theorem ldbExt (ea : Word) : Statement (.ldbExt ea) := of_length 3 rfl rfl
theorem stbExt (ea : Word) : Statement (.stbExt ea) := of_length 3 rfl rfl
theorem eorbExt (ea : Word) : Statement (.eorbExt ea) := of_length 3 rfl rfl
theorem adcbExt (ea : Word) : Statement (.adcbExt ea) := of_length 3 rfl rfl
theorem orbExt (ea : Word) : Statement (.orbExt ea) := of_length 3 rfl rfl
theorem addbExt (ea : Word) : Statement (.addbExt ea) := of_length 3 rfl rfl
theorem lddExt (ea : Word) : Statement (.lddExt ea) := of_length 3 rfl rfl
theorem stdExt (ea : Word) : Statement (.stdExt ea) := of_length 3 rfl rfl
theorem lduExt (ea : Word) : Statement (.lduExt ea) := of_length 3 rfl rfl
theorem stuExt (ea : Word) : Statement (.stuExt ea) := of_length 3 rfl rfl
theorem lbrn (disp : Word) : Statement (.lbrn disp) := of_length 4 rfl rfl
theorem lbhi (disp : Word) : Statement (.lbhi disp) := of_length 4 rfl rfl
theorem lbls (disp : Word) : Statement (.lbls disp) := of_length 4 rfl rfl
theorem lbcc (disp : Word) : Statement (.lbcc disp) := of_length 4 rfl rfl
theorem lbcs (disp : Word) : Statement (.lbcs disp) := of_length 4 rfl rfl
theorem lbne (disp : Word) : Statement (.lbne disp) := of_length 4 rfl rfl
theorem lbeq (disp : Word) : Statement (.lbeq disp) := of_length 4 rfl rfl
theorem lbvc (disp : Word) : Statement (.lbvc disp) := of_length 4 rfl rfl
theorem lbvs (disp : Word) : Statement (.lbvs disp) := of_length 4 rfl rfl
theorem lbpl (disp : Word) : Statement (.lbpl disp) := of_length 4 rfl rfl
theorem lbmi (disp : Word) : Statement (.lbmi disp) := of_length 4 rfl rfl
theorem lbge (disp : Word) : Statement (.lbge disp) := of_length 4 rfl rfl
theorem lblt (disp : Word) : Statement (.lblt disp) := of_length 4 rfl rfl
theorem lbgt (disp : Word) : Statement (.lbgt disp) := of_length 4 rfl rfl
theorem lble (disp : Word) : Statement (.lble disp) := of_length 4 rfl rfl
theorem swi2 : Statement .swi2 := of_length 2 rfl rfl
theorem cmpdImm (imm : Word) : Statement (.cmpdImm imm) := of_length 4 rfl rfl
theorem cmpyImm (imm : Word) : Statement (.cmpyImm imm) := of_length 4 rfl rfl
theorem ldyImm (imm : Word) : Statement (.ldyImm imm) := of_length 4 rfl rfl
theorem cmpdDirect (dd : Byte) : Statement (.cmpdDirect dd) := of_length 3 rfl rfl
theorem cmpyDirect (dd : Byte) : Statement (.cmpyDirect dd) := of_length 3 rfl rfl
theorem ldyDirect (dd : Byte) : Statement (.ldyDirect dd) := of_length 3 rfl rfl
theorem styDirect (dd : Byte) : Statement (.styDirect dd) := of_length 3 rfl rfl
theorem cmpdIdx (ix : Indexed) : Statement (.cmpdIdx ix) := of_indexed (ix := ix) 2 rfl rfl
theorem cmpyIdx (ix : Indexed) : Statement (.cmpyIdx ix) := of_indexed (ix := ix) 2 rfl rfl
theorem ldyIdx (ix : Indexed) : Statement (.ldyIdx ix) := of_indexed (ix := ix) 2 rfl rfl
theorem styIdx (ix : Indexed) : Statement (.styIdx ix) := of_indexed (ix := ix) 2 rfl rfl
theorem cmpdExt (ea : Word) : Statement (.cmpdExt ea) := of_length 4 rfl rfl
theorem cmpyExt (ea : Word) : Statement (.cmpyExt ea) := of_length 4 rfl rfl
theorem ldyExt (ea : Word) : Statement (.ldyExt ea) := of_length 4 rfl rfl
theorem styExt (ea : Word) : Statement (.styExt ea) := of_length 4 rfl rfl
theorem ldsImm (imm : Word) : Statement (.ldsImm imm) := of_length 4 rfl rfl
theorem ldsDirect (dd : Byte) : Statement (.ldsDirect dd) := of_length 3 rfl rfl
theorem stsDirect (dd : Byte) : Statement (.stsDirect dd) := of_length 3 rfl rfl
theorem ldsIdx (ix : Indexed) : Statement (.ldsIdx ix) := of_indexed (ix := ix) 2 rfl rfl
theorem stsIdx (ix : Indexed) : Statement (.stsIdx ix) := of_indexed (ix := ix) 2 rfl rfl
theorem ldsExt (ea : Word) : Statement (.ldsExt ea) := of_length 4 rfl rfl
theorem stsExt (ea : Word) : Statement (.stsExt ea) := of_length 4 rfl rfl
theorem unassignedPage10 (sub : Byte) : Statement (.unassignedPage10 sub) := of_length 2 rfl rfl
theorem swi3 : Statement .swi3 := of_length 2 rfl rfl
theorem cmpuImm (imm : Word) : Statement (.cmpuImm imm) := of_length 4 rfl rfl
theorem cmpsImm (imm : Word) : Statement (.cmpsImm imm) := of_length 4 rfl rfl
theorem cmpuDirect (dd : Byte) : Statement (.cmpuDirect dd) := of_length 3 rfl rfl
theorem cmpsDirect (dd : Byte) : Statement (.cmpsDirect dd) := of_length 3 rfl rfl
theorem cmpuIdx (ix : Indexed) : Statement (.cmpuIdx ix) := of_indexed (ix := ix) 2 rfl rfl
theorem cmpsIdx (ix : Indexed) : Statement (.cmpsIdx ix) := of_indexed (ix := ix) 2 rfl rfl
theorem cmpuExt (ea : Word) : Statement (.cmpuExt ea) := of_length 4 rfl rfl
theorem cmpsExt (ea : Word) : Statement (.cmpsExt ea) := of_length 4 rfl rfl
theorem unassignedPage11 (sub : Byte) : Statement (.unassignedPage11 sub) := of_length 2 rfl rfl

end Sys2Proof.Laws.Length
end

