-- ==== Sys2Proof/Laws/Results.lean ====
section
/-! SUPPORT. What leaving a result in its place, loading a register and setting the flags can do, for every place and register;
the flags commute with stores. -/

namespace Sys2Proof.Machine

/-! ### Accumulators and 16-bit registers -/

theorem writeAcc_frame (r : Acc) (v : Byte) (s : State) : SameBut [r.part] s (writeAcc r v s) := by
  cases r <;> (rw [sameBut_iff]; simp [writeAcc, Acc.part])

theorem readAcc_putFlags (r : Acc) (f : FlagEffects) (s : State) : readAcc r (putFlags f s) = readAcc r s := by
  cases r <;> simp [readAcc]

theorem readAcc_writeAcc (r : Acc) (v : Byte) (s : State) : readAcc r (writeAcc r v s) = v := by
  cases r <;> rfl

theorem writeAcc_cc (r : Acc) (v : Byte) (s : State) : (writeAcc r v s).cc = s.cc := by
  cases r <;> rfl

theorem loadReg16_frame (r : Reg16) (v : Word) (s : State) : SameBut r.parts s (loadReg16 r v s) := by
  cases r <;> (rw [sameBut_iff]; simp [loadReg16, Reg16.parts])

theorem readReg16_putFlags (r : Reg16) (f : FlagEffects) (s : State) :
    readReg16 r (putFlags f s) = readReg16 r s := by
  cases r <;> simp [readReg16, State.d]

theorem readReg16_load (r : Reg16) (v : Word) (s : State) : readReg16 r (loadReg16 r v s) = v := by
  cases r <;> simp [readReg16, loadReg16]

theorem putFlags_d (f : FlagEffects) (s : State) : (putFlags f s).d = s.d := by simp [State.d]

/-! ### Flags and stores -/

/-- Flags that draw no free value depend on CC alone. -/
theorem putFlags_cc_congr {f : FlagEffects} {s t : State} (hf : f.draws = 0) (h : t.cc = s.cc) :
    (putFlags f t).cc = (putFlags f s).cc := by
  have e : ∀ (e : FlagEffect) (old : Bool) (x y : State), e.draws.toNat = 0 →
      (flagValue e old x).1 = (flagValue e old y).1 := by
    intro e old x y h
    cases e <;> simp_all [flagValue, FlagEffect.draws]
  simp only [FlagEffects.draws, Nat.add_eq_zero_iff] at hf
  obtain ⟨⟨⟨⟨hh, hn⟩, hz⟩, hv⟩, hc⟩ := hf
  simp only [putFlags, putCc_cc, h]
  rw [e _ _ _ _ hh, e _ _ _ _ hn, e _ _ _ _ hz, e _ _ _ _ hv, e _ _ _ _ hc]

/-- Flags that draw no free value commute with a store. -/
theorem memWrite8_putFlags (a : Word) (v : Byte) {f : FlagEffects} (s : State) (hf : f.draws = 0) :
    memWrite8 a v (putFlags f s) = putFlags f (memWrite8 a v s) := by
  have h : ∀ (x : State) (c : Byte), memWrite8 a v (x.putCc c) = (memWrite8 a v x).putCc c := by
    intro x c
    unfold memWrite8
    simp only [putCc_params]
    split <;> rfl
  have hd : ∀ x : State, putFlags f x = x.putCc (putFlags f x).cc := by
    intro x
    conv => lhs; rw [putFlags_eq f x, hf]
    rfl
  have hc : (putFlags f (memWrite8 a v s)).cc = (putFlags f s).cc :=
    putFlags_cc_congr hf (memWrite8_cc a v s)
  rw [hd s, hd (memWrite8 a v s), h, hc]

theorem memWrite16_putFlags (a v : Word) {f : FlagEffects} (s : State) (hf : f.draws = 0) :
    memWrite16 a v (putFlags f s) = putFlags f (memWrite16 a v s) := by
  simp [memWrite16, memWrite8_putFlags, hf]

/-! ### Places -/

/-- The operand is read, the result left in its place, then the flags set. -/
theorem modifyPlace_eq (f : Unary8) (p : Place) (s : State) :
    modifyPlace f p s = putFlags (f (p.operand s).1 (ccC s.cc)).2 (p.leave (f (p.operand s).1 (ccC s.cc)).1 s) := by
  cases p with
  | acc r => rfl
  | mem m =>
    simp only [modifyPlace, modifyMem, Place.operand, Place.leave]
    have h := operand8_cc m s
    simp only [operand8] at h ⊢
    rw [h]

theorem Place.leave_frame (p : Place) (r : Byte) (s : State) : SameBut p.touches s (p.leave r s) := by
  cases p with
  | acc k => cases k <;> (rw [sameBut_iff]; simp [Place.leave, Place.touches, writeAcc, Acc.part])
  | mem m =>
    refine ((operand8_frame m s).trans (memWrite8_frame _ _ _)).mono ?_
    intro p hp
    simp only [Place.touches, MemMode.touches, List.mem_append, List.mem_cons, List.not_mem_nil, or_false] at hp ⊢
    tauto

theorem Place.leave_bytes (p : Place) (r : Byte) (s : State) : BytesSameBut (p.stored s) s (p.leave r s) := by
  cases p with
  | acc k => cases k <;> exact fun _ _ => rfl
  | mem m =>
    intro a ha
    refine (memWrite8_bytes _ _ _ a ha).trans ?_
    rw [operand8_frame m s .mem m.not_touched.2.2.2.2.2.2.2.1]

theorem Place.leave_cc (p : Place) (r : Byte) (s : State) : (p.leave r s).cc = s.cc := by
  apply (p.leave_frame r s).cc
  intro k
  cases p with
  | acc r => cases r <;> simp [Place.touches, Acc.part]
  | mem m => simp only [Place.touches, List.mem_cons, not_or]; exact ⟨by simp, m.not_touched.2.2.2.2.1 k⟩

/-- A result left in its place and flags set are all that a one-operand instruction does. -/
theorem done_of {p : Place} {r : Byte} {f : FlagEffects} {flags : List (Flag × Bool)} {free : List Flag} {s : State}
    (hr : FlagsAre (putFlags f (p.leave r s)) flags)
    (hf : SameBut (flagParts (flags.map Prod.fst ++ free) ++ (if free.isEmpty then [] else [.draws]))
      (p.leave r s) (putFlags f (p.leave r s))) :
    p.Done r flags free s (putFlags f (p.leave r s)) := by
  refine ⟨hr, ⟨hf, ?_⟩, ?_⟩
  · refine ((p.leave_frame r s).trans hf).mono ?_
    intro q hq
    simp only [List.mem_append] at hq ⊢
    tauto
  · intro a ha
    rw [putFlags_mem]
    exact p.leave_bytes r s a ha

/-! ### The flags of each kind of result -/

theorem sub_flags (a m : Byte) (bin : Bool) (x : State) :
    FlagsAre (putFlags (sub8 a m bin).2 x) (differenceFlags a m bin (sub8 a m bin).1) := by
  simp [FlagsAre, Flag.read, sub8, nz8, putFlags, flagValue, differenceFlags]
  cases bin <;> simp
  omega

theorem sub_frame (a m : Byte) (bin : Bool) (x : State) :
    SameBut differenceParts x (putFlags (sub8 a m bin).2 x) := by
  apply putFlags_frame <;> simp [sub8, nz8, differenceParts, flagParts]

theorem logic_flags (v : Byte) (x : State) : FlagsAre (putFlags (logicFlags8 v) x) (valueFlags v) := by
  simp [FlagsAre, Flag.read, logicFlags8, nz8, putFlags, flagValue, valueFlags]

theorem logic_frame (v : Byte) (x : State) : SameBut nzvParts x (putFlags (logicFlags8 v) x) := by
  apply putFlags_frame <;> simp [logicFlags8, nz8, nzvParts, flagParts, FlagEffects.draws, FlagEffect.draws]

theorem sub16_flags (a m : Word) (x : State) :
    FlagsAre (putFlags (sub16 a m).2 x) (differenceFlags16 a m (sub16 a m).1) := by
  simp [FlagsAre, Flag.read, sub16, nz16, putFlags, flagValue, differenceFlags16]

theorem sub16_frame (a m : Word) (x : State) : SameBut (flagParts [.n, .z, .v, .c]) x (putFlags (sub16 a m).2 x) := by
  apply putFlags_frame <;> simp [sub16, nz16, flagParts, FlagEffects.draws, FlagEffect.draws]

theorem ldst16_flags (v : Word) (x : State) : FlagsAre (putFlags (ldstFlags16 v) x) (valueFlags v) := by
  simp [FlagsAre, Flag.read, ldstFlags16, nz16, putFlags, flagValue, valueFlags]

theorem ldst16_frame (v : Word) (x : State) : SameBut nzvParts x (putFlags (ldstFlags16 v) x) := by
  apply putFlags_frame <;> simp [ldstFlags16, nz16, nzvParts, flagParts, FlagEffects.draws, FlagEffect.draws]

/-! ### The order a difference decides -/

/-- After a subtraction of bytes the conditions decide the order of its operands. -/
theorem condHolds_difference8 (c : Cond) (a m : Byte) (cc : Byte) (d : Byte)
    (hd : (d.toNat : Int) = ((a.toNat : Int) - m.toNat) % 256)
    (hn : ccN cc = d.msb) (hz : ccZ cc = (d == 0)) (hv : ccV cc = (a.msb != m.msb && d.msb != a.msb)) (hc :
        ccC cc = decide (a.toNat < m.toNat)) :
    condHolds c cc = orderHolds c a m := by
  have ha := a.isLt
  have hm := m.isLt
  have hdl := d.isLt
  have e : a - m = d := by
    apply BitVec.eq_of_toNat_eq; rw [BitVec.toNat_sub]; omega
  have hz' : ccZ cc = decide (a.toNat = m.toNat) := by
    rw [hz, Bool.eq_iff_iff]
    simp only [beq_iff_eq, decide_eq_true_eq]
    constructor
    · intro h; rw [h] at hd; simp at hd; omega
    · intro h; apply BitVec.eq_of_toNat_eq; simp; omega
  have hn' : ccN cc = decide (128 ≤ d.toNat) := by rw [hn, BitVec.msb_eq_decide]
  have hv' : ccV cc = overflows 8 (a.toInt - m.toInt) := by
    rw [hv, BitVec.msb_eq_decide, BitVec.msb_eq_decide, BitVec.msb_eq_decide, overflows, BitVec.toInt_eq_toNat_cond,
        BitVec.toInt_eq_toNat_cond]
    rw [Bool.eq_iff_iff]
    simp only [Bool.and_eq_true, bne_iff_ne, ne_eq, decide_eq_decide, Bool.or_eq_true, decide_eq_true_eq]
    split <;> split <;> omega
  have hnv : (ccN cc != ccV cc) = decide (a.toInt < m.toInt) := by
    rw [hv', hn', overflows, BitVec.toInt_eq_toNat_cond, BitVec.toInt_eq_toNat_cond]
    rw [Bool.eq_iff_iff]
    simp only [bne_iff_ne, ne_eq, decide_eq_true_eq, ← Bool.decide_or, decide_eq_decide]
    split <;> split <;> omega
  have hge : a.toInt = m.toInt ↔ a.toNat = m.toNat := by
    rw [BitVec.toInt_inj]; exact ⟨fun h => by rw [h], fun h => BitVec.eq_of_toNat_eq h⟩
  cases c <;> simp only [condHolds, orderHolds, hnv, hc, hz', e, ← hv', ← hn]
  · rw [Bool.eq_iff_iff]; simp; omega
  · rw [Bool.eq_iff_iff]; simp; omega
  · rw [Bool.eq_iff_iff]; simp
  · rw [Bool.eq_iff_iff]; simp
  · rw [Bool.eq_iff_iff]; simp
  · rw [Bool.eq_iff_iff]; simp; omega
  · rw [Bool.eq_iff_iff]; simp; omega

/-- After a subtraction of words the conditions decide the order of its operands. -/
theorem condHolds_difference16 (c : Cond) (a m : Word) (cc : Byte) (d : Word)
    (hd : (d.toNat : Int) = ((a.toNat : Int) - m.toNat) % 65536)
    (hn : ccN cc = d.msb) (hz : ccZ cc = (d == 0)) (hv : ccV cc = (a.msb != m.msb && d.msb != a.msb)) (hc :
        ccC cc = decide (a.toNat < m.toNat)) :
    condHolds c cc = orderHolds c a m := by
  have ha := a.isLt
  have hm := m.isLt
  have hdl := d.isLt
  have e : a - m = d := by
    apply BitVec.eq_of_toNat_eq; rw [BitVec.toNat_sub]; omega
  have hz' : ccZ cc = decide (a.toNat = m.toNat) := by
    rw [hz, Bool.eq_iff_iff]
    simp only [beq_iff_eq, decide_eq_true_eq]
    constructor
    · intro h; rw [h] at hd; simp at hd; omega
    · intro h; apply BitVec.eq_of_toNat_eq; simp; omega
  have hn' : ccN cc = decide (32768 ≤ d.toNat) := by rw [hn, BitVec.msb_eq_decide]
  have hv' : ccV cc = overflows 16 (a.toInt - m.toInt) := by
    rw [hv, BitVec.msb_eq_decide, BitVec.msb_eq_decide, BitVec.msb_eq_decide, overflows, BitVec.toInt_eq_toNat_cond,
        BitVec.toInt_eq_toNat_cond]
    rw [Bool.eq_iff_iff]
    simp only [Bool.and_eq_true, bne_iff_ne, ne_eq, decide_eq_decide, Bool.or_eq_true, decide_eq_true_eq]
    split <;> split <;> omega
  have hnv : (ccN cc != ccV cc) = decide (a.toInt < m.toInt) := by
    rw [hv', hn', overflows, BitVec.toInt_eq_toNat_cond, BitVec.toInt_eq_toNat_cond]
    rw [Bool.eq_iff_iff]
    simp only [bne_iff_ne, ne_eq, decide_eq_true_eq, ← Bool.decide_or, decide_eq_decide]
    split <;> split <;> omega
  have hge : a.toInt = m.toInt ↔ a.toNat = m.toNat := by
    rw [BitVec.toInt_inj]; exact ⟨fun h => by rw [h], fun h => BitVec.eq_of_toNat_eq h⟩
  cases c <;> simp only [condHolds, orderHolds, hnv, hc, hz', e, ← hv', ← hn]
  · rw [Bool.eq_iff_iff]; simp; omega
  · rw [Bool.eq_iff_iff]; simp; omega
  · rw [Bool.eq_iff_iff]; simp
  · rw [Bool.eq_iff_iff]; simp
  · rw [Bool.eq_iff_iff]; simp
  · rw [Bool.eq_iff_iff]; simp; omega
  · rw [Bool.eq_iff_iff]; simp; omega

end Sys2Proof.Machine
end

