-- ==== Sys2Proof/Tests/Slice0.lean ====
section
/-! SUPPORT. Tests of the model: ill-formed terms, words of every opcode written from the maps of 30_encoding,
single steps
with the values of 95_test_vectors, and for each obligation with hypotheses a state that meets them. -/

namespace Sys2Proof.Tests

open Sys2Proof Sys2Proof.Machine

set_option maxRecDepth 8000

/-! ### Ill-formed terms, one for each check of `Instr.wf` -/

theorem test_wf_refuses_mixed_exg : (Instr.exg .a .x).wf = false := by decide
theorem test_wf_refuses_mixed_tfr : (Instr.tfr .d .cc).wf = false := by decide
theorem test_wf_refuses_assigned_page10 : (Instr.unassignedPage10 0x8E).wf = false := by decide
theorem test_wf_refuses_assigned_page11 : (Instr.unassignedPage11 0x3F).wf = false := by decide

/-! ### Words of the opcode maps (30_encoding R102, R106, R107), each byte written from its place in the map -/

/-- The row 0x0_ of the primary map (30_encoding R102). -/
theorem test_decode_row_0 :
    decode [0x00, 0x40] = .ok (.negDirect 0x40) [] ∧
    decode [0x01] = .ok .nop01 [] ∧
    decode [0x02] = .ok .nop02 [] ∧
    decode [0x03, 0x40] = .ok (.comDirect 0x40) [] ∧
    decode [0x04, 0x40] = .ok (.lsrDirect 0x40) [] ∧
    decode [0x05] = .ok .nop05 [] ∧
    decode [0x06, 0x40] = .ok (.rorDirect 0x40) [] ∧
    decode [0x07, 0x40] = .ok (.asrDirect 0x40) [] ∧
    decode [0x08, 0x40] = .ok (.aslDirect 0x40) [] ∧
    decode [0x09, 0x40] = .ok (.rolDirect 0x40) [] ∧
    decode [0x0A, 0x40] = .ok (.decDirect 0x40) [] ∧
    decode [0x0B] = .ok .sev [] ∧
    decode [0x0C, 0x40] = .ok (.incDirect 0x40) [] ∧
    decode [0x0D, 0x40] = .ok (.tstDirect 0x40) [] ∧
    decode [0x0E, 0x40] = .ok (.jmpDirect 0x40) [] ∧
    decode [0x0F, 0x40] = .ok (.clrDirect 0x40) [] := by
  refine ⟨?_, ?_, ?_, ?_, ?_, ?_, ?_, ?_, ?_, ?_, ?_, ?_, ?_, ?_, ?_, ?_⟩ <;> rfl

/-- The row 0x1_ of the primary map (30_encoding R102). -/
theorem test_decode_row_1 :
    decode [0x12] = .ok .nop [] ∧
    decode [0x13] = .ok .sync [] ∧
    decode [0x14] = .ok .unassigned14 [] ∧
    decode [0x15] = .ok .unassigned15 [] ∧
    decode [0x16, 0x12, 0x34] = .ok (.lbra 0x1234) [] ∧
    decode [0x17, 0x12, 0x34] = .ok (.lbsr 0x1234) [] ∧
    decode [0x18] = .ok .nop18 [] ∧
    decode [0x19] = .ok .daa [] ∧
    decode [0x1A, 0x5A] = .ok (.orcc 0x5A) [] ∧
    decode [0x1B] = .ok .aba [] ∧
    decode [0x1C, 0x5A] = .ok (.andcc 0x5A) [] ∧
    decode [0x1D] = .ok .sex [] ∧
    decode [0x1E, 0x8B] = .ok (.exg .a .dp) [] ∧
    decode [0x1F, 0x8B] = .ok (.tfr .a .dp) [] := by
  refine ⟨?_, ?_, ?_, ?_, ?_, ?_, ?_, ?_, ?_, ?_, ?_, ?_, ?_, ?_⟩ <;> rfl

/-- The row 0x2_ of the primary map (30_encoding R102). -/
theorem test_decode_row_2 :
    decode [0x20, 0xFE] = .ok (.bra 0xFE) [] ∧
    decode [0x21, 0xFE] = .ok (.brn 0xFE) [] ∧
    decode [0x22, 0xFE] = .ok (.bhi 0xFE) [] ∧
    decode [0x23, 0xFE] = .ok (.bls 0xFE) [] ∧
    decode [0x24, 0xFE] = .ok (.bcc 0xFE) [] ∧
    decode [0x25, 0xFE] = .ok (.bcs 0xFE) [] ∧
    decode [0x26, 0xFE] = .ok (.bne 0xFE) [] ∧
    decode [0x27, 0xFE] = .ok (.beq 0xFE) [] ∧
    decode [0x28, 0xFE] = .ok (.bvc 0xFE) [] ∧
    decode [0x29, 0xFE] = .ok (.bvs 0xFE) [] ∧
    decode [0x2A, 0xFE] = .ok (.bpl 0xFE) [] ∧
    decode [0x2B, 0xFE] = .ok (.bmi 0xFE) [] ∧
    decode [0x2C, 0xFE] = .ok (.bge 0xFE) [] ∧
    decode [0x2D, 0xFE] = .ok (.blt 0xFE) [] ∧
    decode [0x2E, 0xFE] = .ok (.bgt 0xFE) [] ∧
    decode [0x2F, 0xFE] = .ok (.ble 0xFE) [] := by
  refine ⟨?_, ?_, ?_, ?_, ?_, ?_, ?_, ?_, ?_, ?_, ?_, ?_, ?_, ?_, ?_, ?_⟩ <;> rfl

/-- The row 0x3_ of the primary map (30_encoding R102). -/
theorem test_decode_row_3 :
    decode [0x30, 0xA4] = .ok (.leax (.plain .y false)) [] ∧
    decode [0x31, 0xA4] = .ok (.leay (.plain .y false)) [] ∧
    decode [0x32, 0xA4] = .ok (.leas (.plain .y false)) [] ∧
    decode [0x33, 0xA4] = .ok (.leau (.plain .y false)) [] ∧
    decode [0x34, 0x16] = .ok (.pshs 0x16) [] ∧
    decode [0x35, 0x16] = .ok (.puls 0x16) [] ∧
    decode [0x36, 0x16] = .ok (.pshu 0x16) [] ∧
    decode [0x37, 0x16] = .ok (.pulu 0x16) [] ∧
    decode [0x38] = .ok .nop38 [] ∧
    decode [0x39] = .ok .rts [] ∧
    decode [0x3A] = .ok .abx [] ∧
    decode [0x3B] = .ok .rti [] ∧
    decode [0x3C, 0x5A] = .ok (.cwai 0x5A) [] ∧
    decode [0x3D] = .ok .mul [] ∧
    decode [0x3E] = .ok .wai [] ∧
    decode [0x3F] = .ok .swi [] := by
  refine ⟨?_, ?_, ?_, ?_, ?_, ?_, ?_, ?_, ?_, ?_, ?_, ?_, ?_, ?_, ?_, ?_⟩ <;> rfl

/-- The row 0x4_ of the primary map (30_encoding R102). -/
theorem test_decode_row_4 :
    decode [0x40] = .ok .nega [] ∧
    decode [0x41] = .ok .unassigned41 [] ∧
    decode [0x42] = .ok .unassigned42 [] ∧
    decode [0x43] = .ok .coma [] ∧
    decode [0x44] = .ok .lsra [] ∧
    decode [0x45] = .ok .nop45 [] ∧
    decode [0x46] = .ok .rora [] ∧
    decode [0x47] = .ok .asra [] ∧
    decode [0x48] = .ok .asla [] ∧
    decode [0x49] = .ok .rola [] ∧
    decode [0x4A] = .ok .deca [] ∧
    decode [0x4B] = .ok .unassigned4B [] ∧
    decode [0x4C] = .ok .inca [] ∧
    decode [0x4D] = .ok .tsta [] ∧
    decode [0x4E] = .ok .nop4E [] ∧
    decode [0x4F] = .ok .clra [] := by
  refine ⟨?_, ?_, ?_, ?_, ?_, ?_, ?_, ?_, ?_, ?_, ?_, ?_, ?_, ?_, ?_, ?_⟩ <;> rfl

/-- The row 0x5_ of the primary map (30_encoding R102). -/
theorem test_decode_row_5 :
    decode [0x50] = .ok .negb [] ∧
    decode [0x51] = .ok .unassigned51 [] ∧
    decode [0x52] = .ok .nop52 [] ∧
    decode [0x53] = .ok .comb [] ∧
    decode [0x54] = .ok .lsrb [] ∧
    decode [0x55] = .ok .unassigned55 [] ∧
    decode [0x56] = .ok .rorb [] ∧
    decode [0x57] = .ok .asrb [] ∧
    decode [0x58] = .ok .aslb [] ∧
    decode [0x59] = .ok .rolb [] ∧
    decode [0x5A] = .ok .decb [] ∧
    decode [0x5B] = .ok .unassigned5B [] ∧
    decode [0x5C] = .ok .incb [] ∧
    decode [0x5D] = .ok .tstb [] ∧
    decode [0x5E] = .ok .unassigned5E [] ∧
    decode [0x5F] = .ok .clrb [] := by
  refine ⟨?_, ?_, ?_, ?_, ?_, ?_, ?_, ?_, ?_, ?_, ?_, ?_, ?_, ?_, ?_, ?_⟩ <;> rfl

/-- The row 0x6_ of the primary map (30_encoding R102). -/
theorem test_decode_row_6 :
    decode [0x60, 0xA4] = .ok (.negIdx (.plain .y false)) [] ∧
    decode [0x61] = .ok .unassigned61 [] ∧
    decode [0x62] = .ok .unassigned62 [] ∧
    decode [0x63, 0xA4] = .ok (.comIdx (.plain .y false)) [] ∧
    decode [0x64, 0xA4] = .ok (.lsrIdx (.plain .y false)) [] ∧
    decode [0x65] = .ok .unassigned65 [] ∧
    decode [0x66, 0xA4] = .ok (.rorIdx (.plain .y false)) [] ∧
    decode [0x67, 0xA4] = .ok (.asrIdx (.plain .y false)) [] ∧
    decode [0x68, 0xA4] = .ok (.aslIdx (.plain .y false)) [] ∧
    decode [0x69, 0xA4] = .ok (.rolIdx (.plain .y false)) [] ∧
    decode [0x6A, 0xA4] = .ok (.decIdx (.plain .y false)) [] ∧
    decode [0x6B] = .ok .unassigned6B [] ∧
    decode [0x6C, 0xA4] = .ok (.incIdx (.plain .y false)) [] ∧
    decode [0x6D, 0xA4] = .ok (.tstIdx (.plain .y false)) [] ∧
    decode [0x6E, 0xA4] = .ok (.jmpIdx (.plain .y false)) [] ∧
    decode [0x6F, 0xA4] = .ok (.clrIdx (.plain .y false)) [] := by
  refine ⟨?_, ?_, ?_, ?_, ?_, ?_, ?_, ?_, ?_, ?_, ?_, ?_, ?_, ?_, ?_, ?_⟩ <;> rfl

/-- The row 0x7_ of the primary map (30_encoding R102). -/
theorem test_decode_row_7 :
    decode [0x70, 0x12, 0x34] = .ok (.negExt 0x1234) [] ∧
    decode [0x71] = .ok .unassigned71 [] ∧
    decode [0x72] = .ok .unassigned72 [] ∧
    decode [0x73, 0x12, 0x34] = .ok (.comExt 0x1234) [] ∧
    decode [0x74, 0x12, 0x34] = .ok (.lsrExt 0x1234) [] ∧
    decode [0x75] = .ok .unassigned75 [] ∧
    decode [0x76, 0x12, 0x34] = .ok (.rorExt 0x1234) [] ∧
    decode [0x77, 0x12, 0x34] = .ok (.asrExt 0x1234) [] ∧
    decode [0x78, 0x12, 0x34] = .ok (.aslExt 0x1234) [] ∧
    decode [0x79, 0x12, 0x34] = .ok (.rolExt 0x1234) [] ∧
    decode [0x7A, 0x12, 0x34] = .ok (.decExt 0x1234) [] ∧
    decode [0x7B] = .ok .nop7B [] ∧
    decode [0x7C, 0x12, 0x34] = .ok (.incExt 0x1234) [] ∧
    decode [0x7D, 0x12, 0x34] = .ok (.tstExt 0x1234) [] ∧
    decode [0x7E, 0x12, 0x34] = .ok (.jmpExt 0x1234) [] ∧
    decode [0x7F, 0x12, 0x34] = .ok (.clrExt 0x1234) [] := by
  refine ⟨?_, ?_, ?_, ?_, ?_, ?_, ?_, ?_, ?_, ?_, ?_, ?_, ?_, ?_, ?_, ?_⟩ <;> rfl

/-- The row 0x8_ of the primary map (30_encoding R102). -/
theorem test_decode_row_8 :
    decode [0x80, 0x5A] = .ok (.subaImm 0x5A) [] ∧
    decode [0x81, 0x5A] = .ok (.cmpaImm 0x5A) [] ∧
    decode [0x82, 0x5A] = .ok (.sbcaImm 0x5A) [] ∧
    decode [0x83, 0x12, 0x34] = .ok (.subdImm 0x1234) [] ∧
    decode [0x84, 0x5A] = .ok (.andaImm 0x5A) [] ∧
    decode [0x85, 0x5A] = .ok (.bitaImm 0x5A) [] ∧
    decode [0x86, 0x5A] = .ok (.ldaImm 0x5A) [] ∧
    decode [0x87] = .ok .unassigned87 [] ∧
    decode [0x88, 0x5A] = .ok (.eoraImm 0x5A) [] ∧
    decode [0x89, 0x5A] = .ok (.adcaImm 0x5A) [] ∧
    decode [0x8A, 0x5A] = .ok (.oraImm 0x5A) [] ∧
    decode [0x8B, 0x5A] = .ok (.addaImm 0x5A) [] ∧
    decode [0x8C, 0x12, 0x34] = .ok (.cmpxImm 0x1234) [] ∧
    decode [0x8D, 0xFE] = .ok (.bsr 0xFE) [] ∧
    decode [0x8E, 0x12, 0x34] = .ok (.ldxImm 0x1234) [] ∧
    decode [0x8F] = .ok .nop8F [] := by
  refine ⟨?_, ?_, ?_, ?_, ?_, ?_, ?_, ?_, ?_, ?_, ?_, ?_, ?_, ?_, ?_, ?_⟩ <;> rfl

/-- The row 0x9_ of the primary map (30_encoding R102). -/
theorem test_decode_row_9 :
    decode [0x90, 0x40] = .ok (.subaDirect 0x40) [] ∧
    decode [0x91, 0x40] = .ok (.cmpaDirect 0x40) [] ∧
    decode [0x92, 0x40] = .ok (.sbcaDirect 0x40) [] ∧
    decode [0x93, 0x40] = .ok (.subdDirect 0x40) [] ∧
    decode [0x94, 0x40] = .ok (.andaDirect 0x40) [] ∧
    decode [0x95, 0x40] = .ok (.bitaDirect 0x40) [] ∧
    decode [0x96, 0x40] = .ok (.ldaDirect 0x40) [] ∧
    decode [0x97, 0x40] = .ok (.staDirect 0x40) [] ∧
    decode [0x98, 0x40] = .ok (.eoraDirect 0x40) [] ∧
    decode [0x99, 0x40] = .ok (.adcaDirect 0x40) [] ∧
    decode [0x9A, 0x40] = .ok (.oraDirect 0x40) [] ∧
    decode [0x9B, 0x40] = .ok (.addaDirect 0x40) [] ∧
    decode [0x9C, 0x40] = .ok (.cmpxDirect 0x40) [] ∧
    decode [0x9D, 0x40] = .ok (.jsrDirect 0x40) [] ∧
    decode [0x9E, 0x40] = .ok (.ldxDirect 0x40) [] ∧
    decode [0x9F, 0x40] = .ok (.stxDirect 0x40) [] := by
  refine ⟨?_, ?_, ?_, ?_, ?_, ?_, ?_, ?_, ?_, ?_, ?_, ?_, ?_, ?_, ?_, ?_⟩ <;> rfl

/-- The row 0xA_ of the primary map (30_encoding R102). -/
theorem test_decode_row_A :
    decode [0xA0, 0xA4] = .ok (.subaIdx (.plain .y false)) [] ∧
    decode [0xA1, 0xA4] = .ok (.cmpaIdx (.plain .y false)) [] ∧
    decode [0xA2, 0xA4] = .ok (.sbcaIdx (.plain .y false)) [] ∧
    decode [0xA3, 0xA4] = .ok (.subdIdx (.plain .y false)) [] ∧
    decode [0xA4, 0xA4] = .ok (.andaIdx (.plain .y false)) [] ∧
    decode [0xA5, 0xA4] = .ok (.bitaIdx (.plain .y false)) [] ∧
    decode [0xA6, 0xA4] = .ok (.ldaIdx (.plain .y false)) [] ∧
    decode [0xA7, 0xA4] = .ok (.staIdx (.plain .y false)) [] ∧
    decode [0xA8, 0xA4] = .ok (.eoraIdx (.plain .y false)) [] ∧
    decode [0xA9, 0xA4] = .ok (.adcaIdx (.plain .y false)) [] ∧
    decode [0xAA, 0xA4] = .ok (.oraIdx (.plain .y false)) [] ∧
    decode [0xAB, 0xA4] = .ok (.addaIdx (.plain .y false)) [] ∧
    decode [0xAC, 0xA4] = .ok (.cmpxIdx (.plain .y false)) [] ∧
    decode [0xAD, 0xA4] = .ok (.jsrIdx (.plain .y false)) [] ∧
    decode [0xAE, 0xA4] = .ok (.ldxIdx (.plain .y false)) [] ∧
    decode [0xAF, 0xA4] = .ok (.stxIdx (.plain .y false)) [] := by
  refine ⟨?_, ?_, ?_, ?_, ?_, ?_, ?_, ?_, ?_, ?_, ?_, ?_, ?_, ?_, ?_, ?_⟩ <;> rfl

/-- The row 0xB_ of the primary map (30_encoding R102). -/
theorem test_decode_row_B :
    decode [0xB0, 0x12, 0x34] = .ok (.subaExt 0x1234) [] ∧
    decode [0xB1, 0x12, 0x34] = .ok (.cmpaExt 0x1234) [] ∧
    decode [0xB2, 0x12, 0x34] = .ok (.sbcaExt 0x1234) [] ∧
    decode [0xB3, 0x12, 0x34] = .ok (.subdExt 0x1234) [] ∧
    decode [0xB4, 0x12, 0x34] = .ok (.andaExt 0x1234) [] ∧
    decode [0xB5, 0x12, 0x34] = .ok (.bitaExt 0x1234) [] ∧
    decode [0xB6, 0x12, 0x34] = .ok (.ldaExt 0x1234) [] ∧
    decode [0xB7, 0x12, 0x34] = .ok (.staExt 0x1234) [] ∧
    decode [0xB8, 0x12, 0x34] = .ok (.eoraExt 0x1234) [] ∧
    decode [0xB9, 0x12, 0x34] = .ok (.adcaExt 0x1234) [] ∧
    decode [0xBA, 0x12, 0x34] = .ok (.oraExt 0x1234) [] ∧
    decode [0xBB, 0x12, 0x34] = .ok (.addaExt 0x1234) [] ∧
    decode [0xBC, 0x12, 0x34] = .ok (.cmpxExt 0x1234) [] ∧
    decode [0xBD, 0x12, 0x34] = .ok (.jsrExt 0x1234) [] ∧
    decode [0xBE, 0x12, 0x34] = .ok (.ldxExt 0x1234) [] ∧
    decode [0xBF, 0x12, 0x34] = .ok (.stxExt 0x1234) [] := by
  refine ⟨?_, ?_, ?_, ?_, ?_, ?_, ?_, ?_, ?_, ?_, ?_, ?_, ?_, ?_, ?_, ?_⟩ <;> rfl

/-- The row 0xC_ of the primary map (30_encoding R102). -/
theorem test_decode_row_C :
    decode [0xC0, 0x5A] = .ok (.subbImm 0x5A) [] ∧
    decode [0xC1, 0x5A] = .ok (.cmpbImm 0x5A) [] ∧
    decode [0xC2, 0x5A] = .ok (.sbcbImm 0x5A) [] ∧
    decode [0xC3, 0x12, 0x34] = .ok (.adddImm 0x1234) [] ∧
    decode [0xC4, 0x5A] = .ok (.andbImm 0x5A) [] ∧
    decode [0xC5, 0x5A] = .ok (.bitbImm 0x5A) [] ∧
    decode [0xC6, 0x5A] = .ok (.ldbImm 0x5A) [] ∧
    decode [0xC7] = .ok .unassignedC7 [] ∧
    decode [0xC8, 0x5A] = .ok (.eorbImm 0x5A) [] ∧
    decode [0xC9, 0x5A] = .ok (.adcbImm 0x5A) [] ∧
    decode [0xCA, 0x5A] = .ok (.orbImm 0x5A) [] ∧
    decode [0xCB, 0x5A] = .ok (.addbImm 0x5A) [] ∧
    decode [0xCC, 0x12, 0x34] = .ok (.lddImm 0x1234) [] ∧
    decode [0xCD] = .ok .unassignedCD [] ∧
    decode [0xCE, 0x12, 0x34] = .ok (.lduImm 0x1234) [] ∧
    decode [0xCF] = .ok .unassignedCF [] := by
  refine ⟨?_, ?_, ?_, ?_, ?_, ?_, ?_, ?_, ?_, ?_, ?_, ?_, ?_, ?_, ?_, ?_⟩ <;> rfl

/-- The row 0xD_ of the primary map (30_encoding R102). -/
theorem test_decode_row_D :
    decode [0xD0, 0x40] = .ok (.subbDirect 0x40) [] ∧
    decode [0xD1, 0x40] = .ok (.cmpbDirect 0x40) [] ∧
    decode [0xD2, 0x40] = .ok (.sbcbDirect 0x40) [] ∧
    decode [0xD3, 0x40] = .ok (.adddDirect 0x40) [] ∧
    decode [0xD4, 0x40] = .ok (.andbDirect 0x40) [] ∧
    decode [0xD5, 0x40] = .ok (.bitbDirect 0x40) [] ∧
    decode [0xD6, 0x40] = .ok (.ldbDirect 0x40) [] ∧
    decode [0xD7, 0x40] = .ok (.stbDirect 0x40) [] ∧
    decode [0xD8, 0x40] = .ok (.eorbDirect 0x40) [] ∧
    decode [0xD9, 0x40] = .ok (.adcbDirect 0x40) [] ∧
    decode [0xDA, 0x40] = .ok (.orbDirect 0x40) [] ∧
    decode [0xDB, 0x40] = .ok (.addbDirect 0x40) [] ∧
    decode [0xDC, 0x40] = .ok (.lddDirect 0x40) [] ∧
    decode [0xDD, 0x40] = .ok (.stdDirect 0x40) [] ∧
    decode [0xDE, 0x40] = .ok (.lduDirect 0x40) [] ∧
    decode [0xDF, 0x40] = .ok (.stuDirect 0x40) [] := by
  refine ⟨?_, ?_, ?_, ?_, ?_, ?_, ?_, ?_, ?_, ?_, ?_, ?_, ?_, ?_, ?_, ?_⟩ <;> rfl

/-- The row 0xE_ of the primary map (30_encoding R102). -/
theorem test_decode_row_E :
    decode [0xE0, 0xA4] = .ok (.subbIdx (.plain .y false)) [] ∧
    decode [0xE1, 0xA4] = .ok (.cmpbIdx (.plain .y false)) [] ∧
    decode [0xE2, 0xA4] = .ok (.sbcbIdx (.plain .y false)) [] ∧
    decode [0xE3, 0xA4] = .ok (.adddIdx (.plain .y false)) [] ∧
    decode [0xE4, 0xA4] = .ok (.andbIdx (.plain .y false)) [] ∧
    decode [0xE5, 0xA4] = .ok (.bitbIdx (.plain .y false)) [] ∧
    decode [0xE6, 0xA4] = .ok (.ldbIdx (.plain .y false)) [] ∧
    decode [0xE7, 0xA4] = .ok (.stbIdx (.plain .y false)) [] ∧
    decode [0xE8, 0xA4] = .ok (.eorbIdx (.plain .y false)) [] ∧
    decode [0xE9, 0xA4] = .ok (.adcbIdx (.plain .y false)) [] ∧
    decode [0xEA, 0xA4] = .ok (.orbIdx (.plain .y false)) [] ∧
    decode [0xEB, 0xA4] = .ok (.addbIdx (.plain .y false)) [] ∧
    decode [0xEC, 0xA4] = .ok (.lddIdx (.plain .y false)) [] ∧
    decode [0xED, 0xA4] = .ok (.stdIdx (.plain .y false)) [] ∧
    decode [0xEE, 0xA4] = .ok (.lduIdx (.plain .y false)) [] ∧
    decode [0xEF, 0xA4] = .ok (.stuIdx (.plain .y false)) [] := by
  refine ⟨?_, ?_, ?_, ?_, ?_, ?_, ?_, ?_, ?_, ?_, ?_, ?_, ?_, ?_, ?_, ?_⟩ <;> rfl

/-- The row 0xF_ of the primary map (30_encoding R102). -/
theorem test_decode_row_F :
    decode [0xF0, 0x12, 0x34] = .ok (.subbExt 0x1234) [] ∧
    decode [0xF1, 0x12, 0x34] = .ok (.cmpbExt 0x1234) [] ∧
    decode [0xF2, 0x12, 0x34] = .ok (.sbcbExt 0x1234) [] ∧
    decode [0xF3, 0x12, 0x34] = .ok (.adddExt 0x1234) [] ∧
    decode [0xF4, 0x12, 0x34] = .ok (.andbExt 0x1234) [] ∧
    decode [0xF5, 0x12, 0x34] = .ok (.bitbExt 0x1234) [] ∧
    decode [0xF6, 0x12, 0x34] = .ok (.ldbExt 0x1234) [] ∧
    decode [0xF7, 0x12, 0x34] = .ok (.stbExt 0x1234) [] ∧
    decode [0xF8, 0x12, 0x34] = .ok (.eorbExt 0x1234) [] ∧
    decode [0xF9, 0x12, 0x34] = .ok (.adcbExt 0x1234) [] ∧
    decode [0xFA, 0x12, 0x34] = .ok (.orbExt 0x1234) [] ∧
    decode [0xFB, 0x12, 0x34] = .ok (.addbExt 0x1234) [] ∧
    decode [0xFC, 0x12, 0x34] = .ok (.lddExt 0x1234) [] ∧
    decode [0xFD, 0x12, 0x34] = .ok (.stdExt 0x1234) [] ∧
    decode [0xFE, 0x12, 0x34] = .ok (.lduExt 0x1234) [] ∧
    decode [0xFF, 0x12, 0x34] = .ok (.stuExt 0x1234) [] := by
  refine ⟨?_, ?_, ?_, ?_, ?_, ?_, ?_, ?_, ?_, ?_, ?_, ?_, ?_, ?_, ?_, ?_⟩ <;> rfl

/-- Prefix 0x10, the first half of its map (30_encoding R106). -/
theorem test_decode_page_10_low :
    decode [0x10, 0x21, 0x12, 0x34] = .ok (.lbrn 0x1234) [] ∧
    decode [0x10, 0x22, 0x12, 0x34] = .ok (.lbhi 0x1234) [] ∧
    decode [0x10, 0x23, 0x12, 0x34] = .ok (.lbls 0x1234) [] ∧
    decode [0x10, 0x24, 0x12, 0x34] = .ok (.lbcc 0x1234) [] ∧
    decode [0x10, 0x25, 0x12, 0x34] = .ok (.lbcs 0x1234) [] ∧
    decode [0x10, 0x26, 0x12, 0x34] = .ok (.lbne 0x1234) [] ∧
    decode [0x10, 0x27, 0x12, 0x34] = .ok (.lbeq 0x1234) [] ∧
    decode [0x10, 0x28, 0x12, 0x34] = .ok (.lbvc 0x1234) [] ∧
    decode [0x10, 0x29, 0x12, 0x34] = .ok (.lbvs 0x1234) [] ∧
    decode [0x10, 0x2A, 0x12, 0x34] = .ok (.lbpl 0x1234) [] ∧
    decode [0x10, 0x2B, 0x12, 0x34] = .ok (.lbmi 0x1234) [] ∧
    decode [0x10, 0x2C, 0x12, 0x34] = .ok (.lbge 0x1234) [] ∧
    decode [0x10, 0x2D, 0x12, 0x34] = .ok (.lblt 0x1234) [] ∧
    decode [0x10, 0x2E, 0x12, 0x34] = .ok (.lbgt 0x1234) [] ∧
    decode [0x10, 0x2F, 0x12, 0x34] = .ok (.lble 0x1234) [] ∧
    decode [0x10, 0x3F] = .ok .swi2 [] ∧
    decode [0x10, 0x83, 0x12, 0x34] = .ok (.cmpdImm 0x1234) [] ∧
    decode [0x10, 0x8C, 0x12, 0x34] = .ok (.cmpyImm 0x1234) [] ∧
    decode [0x10, 0x8E, 0x12, 0x34] = .ok (.ldyImm 0x1234) [] ∧
    decode [0x10, 0x93, 0x40] = .ok (.cmpdDirect 0x40) [] := by
  refine ⟨?_, ?_, ?_, ?_, ?_, ?_, ?_, ?_, ?_, ?_, ?_, ?_, ?_, ?_, ?_, ?_, ?_, ?_, ?_, ?_⟩ <;> rfl

/-- Prefix 0x10, the rest of its map, with two bytes it does not list (30_encoding R106, R108). -/
theorem test_decode_page_10_high :
    decode [0x10, 0x9C, 0x40] = .ok (.cmpyDirect 0x40) [] ∧
    decode [0x10, 0x9E, 0x40] = .ok (.ldyDirect 0x40) [] ∧
    decode [0x10, 0x9F, 0x40] = .ok (.styDirect 0x40) [] ∧
    decode [0x10, 0xA3, 0xA4] = .ok (.cmpdIdx (.plain .y false)) [] ∧
    decode [0x10, 0xAC, 0xA4] = .ok (.cmpyIdx (.plain .y false)) [] ∧
    decode [0x10, 0xAE, 0xA4] = .ok (.ldyIdx (.plain .y false)) [] ∧
    decode [0x10, 0xAF, 0xA4] = .ok (.styIdx (.plain .y false)) [] ∧
    decode [0x10, 0xB3, 0x12, 0x34] = .ok (.cmpdExt 0x1234) [] ∧
    decode [0x10, 0xBC, 0x12, 0x34] = .ok (.cmpyExt 0x1234) [] ∧
    decode [0x10, 0xBE, 0x12, 0x34] = .ok (.ldyExt 0x1234) [] ∧
    decode [0x10, 0xBF, 0x12, 0x34] = .ok (.styExt 0x1234) [] ∧
    decode [0x10, 0xCE, 0x12, 0x34] = .ok (.ldsImm 0x1234) [] ∧
    decode [0x10, 0xDE, 0x40] = .ok (.ldsDirect 0x40) [] ∧
    decode [0x10, 0xDF, 0x40] = .ok (.stsDirect 0x40) [] ∧
    decode [0x10, 0xEE, 0xA4] = .ok (.ldsIdx (.plain .y false)) [] ∧
    decode [0x10, 0xEF, 0xA4] = .ok (.stsIdx (.plain .y false)) [] ∧
    decode [0x10, 0xFE, 0x12, 0x34] = .ok (.ldsExt 0x1234) [] ∧
    decode [0x10, 0xFF, 0x12, 0x34] = .ok (.stsExt 0x1234) [] ∧
    decode [0x10, 0x10] = .ok (.unassignedPage10 0x10) [] ∧
    decode [0x10, 0x86] = .ok (.unassignedPage10 0x86) [] := by
  refine ⟨?_, ?_, ?_, ?_, ?_, ?_, ?_, ?_, ?_, ?_, ?_, ?_, ?_, ?_, ?_, ?_, ?_, ?_, ?_, ?_⟩ <;> rfl

/-- Prefix 0x11, with two bytes it does not list (30_encoding R107, R108). -/
theorem test_decode_page_11 :
    decode [0x11, 0x3F] = .ok .swi3 [] ∧
    decode [0x11, 0x83, 0x12, 0x34] = .ok (.cmpuImm 0x1234) [] ∧
    decode [0x11, 0x8C, 0x12, 0x34] = .ok (.cmpsImm 0x1234) [] ∧
    decode [0x11, 0x93, 0x40] = .ok (.cmpuDirect 0x40) [] ∧
    decode [0x11, 0x9C, 0x40] = .ok (.cmpsDirect 0x40) [] ∧
    decode [0x11, 0xA3, 0xA4] = .ok (.cmpuIdx (.plain .y false)) [] ∧
    decode [0x11, 0xAC, 0xA4] = .ok (.cmpsIdx (.plain .y false)) [] ∧
    decode [0x11, 0xB3, 0x12, 0x34] = .ok (.cmpuExt 0x1234) [] ∧
    decode [0x11, 0xBC, 0x12, 0x34] = .ok (.cmpsExt 0x1234) [] ∧
    decode [0x11, 0x11] = .ok (.unassignedPage11 0x11) [] ∧
    decode [0x11, 0x86] = .ok (.unassignedPage11 0x86) [] := by
  refine ⟨?_, ?_, ?_, ?_, ?_, ?_, ?_, ?_, ?_, ?_, ?_⟩ <;> rfl

/-- A postbyte for each indexed form, with the register field and the indirect bit at several values (30_encoding
R93 to R96,
the probes of 95_test_vectors 2.9). -/
theorem test_decode_postbytes :
    decode [0xA6, 0x10] = .ok (.ldaIdx (.off5 .x 0x10)) [] ∧
    decode [0xA6, 0x7F] = .ok (.ldaIdx (.off5 .s 0x1F)) [] ∧
    decode [0xA6, 0x80] = .ok (.ldaIdx (.inc1 .x)) [] ∧
    decode [0xA6, 0xA1] = .ok (.ldaIdx (.inc2 .y false)) [] ∧
    decode [0xA6, 0x91] = .ok (.ldaIdx (.inc2 .x true)) [] ∧
    decode [0xA6, 0xC2] = .ok (.ldaIdx (.dec1 .u)) [] ∧
    decode [0xA6, 0xE3] = .ok (.ldaIdx (.dec2 .s false)) [] ∧
    decode [0xA6, 0xB3] = .ok (.ldaIdx (.dec2 .y true)) [] ∧
    decode [0xA6, 0x94] = .ok (.ldaIdx (.plain .x true)) [] ∧
    decode [0xA6, 0xE5] = .ok (.ldaIdx (.accB .s false)) [] ∧
    decode [0xA6, 0x95] = .ok (.ldaIdx (.accB .x true)) [] ∧
    decode [0xA6, 0x86] = .ok (.ldaIdx (.accA .x false)) [] ∧
    decode [0xA6, 0xC8, 0x80] = .ok (.ldaIdx (.off8 .u 0x80 false)) [] ∧
    decode [0xA6, 0x98, 0x02] = .ok (.ldaIdx (.off8 .x 0x02 true)) [] ∧
    decode [0xA6, 0xA9, 0x12, 0x34] = .ok (.ldaIdx (.off16 .y 0x1234 false)) [] ∧
    decode [0xA6, 0x99, 0x10, 0x00] = .ok (.ldaIdx (.off16 .x 0x1000 true)) [] ∧
    decode [0xA6, 0x8B] = .ok (.ldaIdx (.accD .x false)) [] ∧
    decode [0xA6, 0xFB] = .ok (.ldaIdx (.accD .s true)) [] ∧
    decode [0xA6, 0xAC, 0x10] = .ok (.ldaIdx (.pcr8 .y 0x10 false)) [] ∧
    decode [0xA6, 0x9C, 0x10] = .ok (.ldaIdx (.pcr8 .x 0x10 true)) [] ∧
    decode [0xA6, 0x8D, 0x01, 0x00] = .ok (.ldaIdx (.pcr16 .x 0x0100 false)) [] ∧
    decode [0xA6, 0x9D, 0x01, 0x00] = .ok (.ldaIdx (.pcr16 .x 0x0100 true)) [] ∧
    decode [0xA6, 0x9F, 0x20, 0x10] = .ok (.ldaIdx (.extInd 0x2010)) [] := by
  refine ⟨?_, ?_, ?_, ?_, ?_, ?_, ?_, ?_, ?_, ?_, ?_, ?_, ?_, ?_, ?_, ?_, ?_, ?_, ?_, ?_, ?_, ?_, ?_⟩ <;> rfl

/-- The illegal postbytes of 95_test_vectors T153 to T164, and the illegal register pairs of T237 to T241. -/
theorem test_decode_refuses :
    decode [0xA6, 0x87, 0x00, 0x00] = .bad (.illegalPostbyte 0x87) ∧
    decode [0xA6, 0x8A, 0x00, 0x00] = .bad (.illegalPostbyte 0x8A) ∧
    decode [0xA6, 0x8E, 0x00, 0x00] = .bad (.illegalPostbyte 0x8E) ∧
    decode [0xA6, 0x8F, 0x00, 0x00] = .bad (.illegalPostbyte 0x8F) ∧
    decode [0xA6, 0x90, 0x00, 0x00] = .bad (.illegalPostbyte 0x90) ∧
    decode [0xA6, 0x92, 0x00, 0x00] = .bad (.illegalPostbyte 0x92) ∧
    decode [0xA6, 0xAF, 0x00, 0x00] = .bad (.illegalPostbyte 0xAF) ∧
    decode [0xA6, 0xBF, 0x00, 0x00] = .bad (.illegalPostbyte 0xBF) ∧
    decode [0xA6, 0xDF, 0x00, 0x00] = .bad (.illegalPostbyte 0xDF) ∧
    decode [0xA6, 0xFF, 0x00, 0x00] = .bad (.illegalPostbyte 0xFF) ∧
    decode [0xA6, 0xE7, 0x00, 0x00] = .bad (.illegalPostbyte 0xE7) ∧
    decode [0xA6, 0xFA, 0x00, 0x00] = .bad (.illegalPostbyte 0xFA) ∧
    decode [0x1F, 0x81] = .bad .illegalRegisterPair ∧
    decode [0x1F, 0x18] = .bad .illegalRegisterPair ∧
    decode [0x1E, 0x06] = .bad .illegalRegisterPair ∧
    decode [0x1F, 0xC8] = .bad .illegalRegisterPair ∧
    decode [0x1F, 0x7F] = .bad .illegalRegisterPair := by
  refine ⟨?_, ?_, ?_, ?_, ?_, ?_, ?_, ?_, ?_, ?_, ?_, ?_, ?_, ?_, ?_, ?_, ?_⟩ <;> rfl

/-- The numbering of the opcode table: the prefix is the high byte of a 16-bit row (log 14). -/
theorem test_decodeTableWord :
    decodeTableWord 8 0x4A = some .deca ∧ decodeTableWord 16 0x108E = some (.ldyImm 0) ∧
    decodeTableWord 16 0x113F = some .swi3 := ⟨rfl, rfl, rfl⟩

/-! ### Single steps (95_test_vectors) -/

/-- The start state of 95_test_vectors: the bytes at 0x0100, nothing asserted. -/
def start (bytes : List Byte) : State :=
  { State.reset with
    a := 0x11, b := 0x22, dp := 0x20, x := 0x3000, y := 0x4000, u := 0x5000, s := 0x6000, pc := 0x0100, cc := 0x00
    mem := placeBytes bytes 0x0100 [] }

/-- A state with bytes stored from an address on. -/
def holding (a : Word) (bytes : List Byte) (s : State) : State := { s with mem := placeBytes bytes a s.mem }

/-- A step answers a next state with a property. -/
def steps (s : State) (p : State → Bool) : Bool :=
  match step s with
  | .next t => p t
  | .fault _ => false
  | .refused _ => false

/-- T20, `ADDA #0x01`. -/
theorem test_adda :
    steps { start [0x8B, 0x01] with a := 0x0F, cc := 0x00 }
      (fun t => t.a == 0x10 && t.pc == 0x0102 && t.cc == 0x20) = true := by
  decide

/-- T25, `ADCA #0x00`. -/
theorem test_adca :
    steps { start [0x89, 0x00] with a := 0xFF, cc := 0x01 }
      (fun t => t.a == 0x00 && t.pc == 0x0102 && t.cc == 0x25) = true := by
  decide

/-- T29, `ABA`. -/
theorem test_aba :
    steps { start [0x1B] with a := 0x78, b := 0x09, cc := 0x00 }
      (fun t => t.a == 0x81 && t.pc == 0x0101 && t.cc == 0x2A) = true := by
  decide

/-- T32, `SUBA #0x01` (the flags hold a free value). -/
theorem test_suba :
    steps { start [0x80, 0x01] with a := 0x80, cc := 0x00 }
      (fun t => t.a == 0x7F && t.pc == 0x0102) = true := by
  decide

/-- T35, `SBCA #0x00` (the flags hold a free value). -/
theorem test_sbca :
    steps { start [0x82, 0x00] with a := 0x00, cc := 0x01 }
      (fun t => t.a == 0xFF && t.pc == 0x0102) = true := by
  decide

/-- T39, `CMPA #0x20` (the flags hold a free value). -/
theorem test_cmpa :
    steps { start [0x81, 0x20] with a := 0x10, cc := 0x00 }
      (fun t => t.pc == 0x0102) = true := by
  decide

/-- T41, `ANDA #0x0F`. -/
theorem test_anda :
    steps { start [0x84, 0x0F] with a := 0xF0, cc := 0x03 }
      (fun t => t.a == 0x00 && t.pc == 0x0102 && t.cc == 0x05) = true := by
  decide

/-- T42, `ORA #0x80`. -/
theorem test_ora :
    steps { start [0x8A, 0x80] with a := 0x01, cc := 0x03 }
      (fun t => t.a == 0x81 && t.pc == 0x0102 && t.cc == 0x09) = true := by
  decide

/-- T43, `EORB #0xFF`. -/
theorem test_eorb :
    steps { start [0xC8, 0xFF] with b := 0xFF, cc := 0x0B }
      (fun t => t.b == 0x00 && t.pc == 0x0102 && t.cc == 0x05) = true := by
  decide

/-- T44, `BITA #0x80`. -/
theorem test_bita :
    steps { start [0x85, 0x80] with a := 0x80, cc := 0x02 }
      (fun t => t.pc == 0x0102 && t.cc == 0x08) = true := by
  decide

/-- T46, `LDB <0x10`. -/
theorem test_ldb :
    steps { holding 0xC810 [0x80] (start [0xD6, 0x10]) with b := 0x00, dp := 0xC8, cc := 0x02 }
      (fun t => t.b == 0x80 && t.pc == 0x0102 && t.cc == 0x08) = true := by
  decide

/-- T48, `STB 0x1234`. -/
theorem test_stb :
    steps { start [0xF7, 0x12, 0x34] with b := 0xFE, cc := 0x06 }
      (fun t => t.pc == 0x0103 && Memory.read t.mem 0x1234 == 0xFE && t.cc == 0x08) = true := by
  decide

/-- T50, `TST <0x05`. -/
theorem test_tst :
    steps { holding 0x2005 [0x00] (start [0x0D, 0x05]) with dp := 0x20, cc := 0x0B }
      (fun t => t.pc == 0x0102 && t.cc == 0x05) = true := by
  decide

/-- T52, `CLR 0x2000`. -/
theorem test_clr :
    steps { holding 0x2000 [0x99] (start [0x7F, 0x20, 0x00]) with cc := 0x09 }
      (fun t => t.pc == 0x0103 && Memory.read t.mem 0x2000 == 0x00 && t.cc == 0x04) = true := by
  decide

/-- T53, `COMA`. -/
theorem test_coma :
    steps { start [0x43] with a := 0x00, cc := 0x00 }
      (fun t => t.a == 0xFF && t.pc == 0x0101 && t.cc == 0x09) = true := by
  decide

/-- T56, `NEGA` (the flags hold a free value). -/
theorem test_nega :
    steps { start [0x40] with a := 0x80, cc := 0x00 }
      (fun t => t.pc == 0x0101) = true := by
  decide

/-- T58, `INCA`. -/
theorem test_inca :
    steps { start [0x4C] with a := 0x7F, cc := 0x01 }
      (fun t => t.a == 0x80 && t.pc == 0x0101 && t.cc == 0x0B) = true := by
  decide

/-- T64, `DEC ,X`. -/
theorem test_dec :
    steps { holding 0x3000 [0x00] (start [0x6A, 0x84]) with x := 0x3000, cc := 0x00 }
      (fun t => t.pc == 0x0102 && Memory.read t.mem 0x3000 == 0xFF && t.cc == 0x08) = true := by
  decide

/-- T66, `LSRB`. -/
theorem test_lsrb :
    steps { start [0x54] with b := 0x80, cc := 0x09 }
      (fun t => t.b == 0x40 && t.pc == 0x0101 && t.cc == 0x00) = true := by
  decide

/-- T67, `ASRA` (the flags hold a free value). -/
theorem test_asra :
    steps { start [0x47] with a := 0x81, cc := 0x00 }
      (fun t => t.a == 0xC0 && t.pc == 0x0101) = true := by
  decide

/-- T77, `ASL 0x2000` (the flags hold a free value). -/
theorem test_asl :
    steps { holding 0x2000 [0x55] (start [0x78, 0x20, 0x00]) with cc := 0x00 }
      (fun t => t.pc == 0x0103 && Memory.read t.mem 0x2000 == 0xAA) = true := by
  decide

/-- T72, `ROLA`. -/
theorem test_rola :
    steps { start [0x49] with a := 0x80, cc := 0x01 }
      (fun t => t.a == 0x01 && t.pc == 0x0101 && t.cc == 0x03) = true := by
  decide

/-- T76, `ROR ,X`. -/
theorem test_ror :
    steps { holding 0x3000 [0x02] (start [0x66, 0x84]) with x := 0x3000, cc := 0x01 }
      (fun t => t.pc == 0x0102 && Memory.read t.mem 0x3000 == 0x81 && t.cc == 0x08) = true := by
  decide

/-- T81, `DAA (after 0x99 + 0x99 = 0x32, H=1 C=1)` (the flags hold a free value). -/
theorem test_daa :
    steps { start [0x19] with a := 0x32, cc := 0x23 }
      (fun t => t.a == 0x98 && t.pc == 0x0101) = true := by
  decide

/-- T87, `ADDD #0x0001`. -/
theorem test_addd :
    steps { start [0xC3, 0x00, 0x01] with a := 0x7F, b := 0xFF, cc := 0x20 }
      (fun t => t.a == 0x80 && t.b == 0x00 && t.pc == 0x0103 && t.cc == 0x2A) = true := by
  decide

/-- T91, `SUBD <0x40`. -/
theorem test_subd :
    steps { holding 0x2041 [0x34] (holding 0x2040 [0x12] (start [0x93, 0x40])) with
        a := 0x12, b := 0x34, dp := 0x20, cc := 0x00 }
      (fun t => t.a == 0x00 && t.b == 0x00 && t.pc == 0x0102 && t.cc == 0x04) = true := by
  decide

/-- T95, `CMPY #0xFFFF`. -/
theorem test_cmpy :
    steps { start [0x10, 0x8C, 0xFF, 0xFF] with y := 0x0000, cc := 0x00 }
      (fun t => t.pc == 0x0104 && t.cc == 0x01) = true := by
  decide

/-- T99, `LDU #0xFFFE`. -/
theorem test_ldu :
    steps { start [0xCE, 0xFF, 0xFE] with u := 0x0000, cc := 0x06 }
      (fun t => t.u == 0xFFFE && t.pc == 0x0103 && t.cc == 0x08) = true := by
  decide

/-- T102, `STS 0xC800`. -/
theorem test_sts :
    steps { start [0x10, 0xFF, 0xC8, 0x00] with s := 0xCBFF, cc := 0x00 }
      (fun t => t.pc == 0x0104 && Memory.read t.mem 0xC800 == 0xCB && Memory.read t.mem 0xC801 == 0xFF &&
        t.cc == 0x08) = true := by
  decide

/-- T173, `STX ,X++`. -/
theorem test_stx_after_step :
    steps { start [0xAF, 0x81] with x := 0x3000, cc := 0x00 }
      (fun t => t.x == 0x3002 && t.pc == 0x0102 && Memory.read t.mem 0x3000 == 0x30 &&
        Memory.read t.mem 0x3001 == 0x02 && t.cc == 0x00) = true := by
  decide

/-- T103, `SEX`. -/
theorem test_sex :
    steps { start [0x1D] with a := 0x55, b := 0x80, cc := 0x02 }
      (fun t => t.a == 0xFF && t.pc == 0x0101 && t.cc == 0x0A) = true := by
  decide

/-- T106, `SEV`. -/
theorem test_sev :
    steps { start [0x0B] with cc := 0x00 }
      (fun t => t.pc == 0x0101 && t.cc == 0x02) = true := by
  decide

/-- T108, `ABX (gk)`. -/
theorem test_abx :
    steps { start [0x3A] with b := 0x02, x := 0xFFFF, cc := 0x00 }
      (fun t => t.x == 0x0001 && t.pc == 0x0101 && t.cc == 0x00) = true := by
  decide

/-- T13, `MUL`. -/
theorem test_mul :
    steps { start [0x3D] with a := 0xFF, b := 0xFF, cc := 0x00 }
      (fun t => t.a == 0xFE && t.b == 0x01 && t.pc == 0x0101 && t.cc == 0x09) = true := by
  decide

/-- T111, `ORCC #0x50`. -/
theorem test_orcc :
    steps { start [0x1A, 0x50] with cc := 0x00 }
      (fun t => t.cc == 0x50 && t.pc == 0x0102) = true := by
  decide

/-- T113, `ANDCC #0xAF`. -/
theorem test_andcc :
    steps { start [0x1C, 0xAF] with cc := 0xFF }
      (fun t => t.cc == 0xAF && t.pc == 0x0102) = true := by
  decide

/-- T12, `NOP* (0x8F)`. -/
theorem test_nop8F :
    steps { start [0x8F, 0xFF] with a := 0x5A, x := 0x1234, cc := 0xAF }
      (fun t => t.pc == 0x0101 && t.cc == 0xAF) = true := by
  decide

/-- T168, `LEAX -1,X`. -/
theorem test_leax :
    steps { start [0x30, 0x1F] with x := 0x0001, cc := 0x00 }
      (fun t => t.x == 0x0000 && t.pc == 0x0102 && t.cc == 0x04) = true := by
  decide

/-- T179, `BRA -128`. -/
theorem test_bra_back :
    steps { start [0x20, 0x80] with cc := 0x00 }
      (fun t => t.pc == 0x0082 && t.cc == 0x00) = true := by
  decide

/-- T186, `BGT +5`. -/
theorem test_bgt :
    steps { start [0x2E, 0x05] with cc := 0x0A }
      (fun t => t.pc == 0x0107 && t.cc == 0x0A) = true := by
  decide

/-- T191, `LBRA -3 (to itself)`. -/
theorem test_lbra :
    steps { start [0x16, 0xFF, 0xFD] with cc := 0x00 }
      (fun t => t.pc == 0x0100 && t.cc == 0x00) = true := by
  decide

/-- T193, `LBEQ +0x0100 (gk)`. -/
theorem test_lbeq_not_taken :
    steps { start [0x10, 0x27, 0x01, 0x00] with cc := 0x00 }
      (fun t => t.pc == 0x0104 && t.cc == 0x00) = true := by
  decide

/-- T195, `BSR +0x10`. -/
theorem test_bsr :
    steps { start [0x8D, 0x10] with s := 0x6000, cc := 0x00 }
      (fun t => t.s == 0x5FFE && t.pc == 0x0112 && Memory.read t.mem 0x5FFF == 0x02 &&
        Memory.read t.mem 0x5FFE == 0x01 && t.cc == 0x00) = true := by
  decide

/-- T199, `JSR [,X] (gk)`. -/
theorem test_jsr_indirect :
    steps { holding 0x3001 [0x34] (holding 0x3000 [0x12] (start [0xAD, 0x94])) with
        x := 0x3000, s := 0x6000, cc := 0x00 }
      (fun t => t.s == 0x5FFE && t.pc == 0x1234 && Memory.read t.mem 0x5FFF == 0x02 &&
        Memory.read t.mem 0x5FFE == 0x01 && t.cc == 0x00) = true := by
  decide

/-- T200, `RTS`. -/
theorem test_rts :
    steps { holding 0x5FFF [0x02] (holding 0x5FFE [0x01] (start [0x39])) with s := 0x5FFE, cc := 0x00 }
      (fun t => t.s == 0x6000 && t.pc == 0x0102 && t.cc == 0x00) = true := by
  decide

/-- T204, `JMP [0xFFFE]`. -/
theorem test_jmp_indirect :
    steps { holding 0xFFFF [0x00] (holding 0xFFFE [0xE0] (start [0x6E, 0x9F, 0xFF, 0xFE])) with cc := 0x00 }
      (fun t => t.pc == 0xE000 && t.cc == 0x00) = true := by
  decide

/-- T210, `PSHS PC,U,Y,X,DP,B,A,CC`. -/
theorem test_pshs_all :
    steps { start [0x34, 0xFF] with cc := 0x85 }
      (fun t => t.s == 0x5FF4 && t.pc == 0x0102 && Memory.read t.mem 0x5FFF == 0x02 &&
        Memory.read t.mem 0x5FFE == 0x01 && Memory.read t.mem 0x5FFD == 0x00 &&
        Memory.read t.mem 0x5FFC == 0x50 && Memory.read t.mem 0x5FFB == 0x00 &&
        Memory.read t.mem 0x5FFA == 0x40 && Memory.read t.mem 0x5FF9 == 0x00 &&
        Memory.read t.mem 0x5FF8 == 0x30 && Memory.read t.mem 0x5FF7 == 0x20 &&
        Memory.read t.mem 0x5FF6 == 0x22 && Memory.read t.mem 0x5FF5 == 0x11 &&
        Memory.read t.mem 0x5FF4 == 0x85 && t.cc == 0x85) = true := by
  decide

/-- T212, `PSHU S`. -/
theorem test_pshu_s :
    steps { start [0x36, 0x40] with cc := 0x85 }
      (fun t => t.u == 0x4FFE && t.pc == 0x0102 && Memory.read t.mem 0x4FFF == 0x00 &&
        Memory.read t.mem 0x4FFE == 0x60 && t.cc == 0x85) = true := by
  decide

/-- T215, `PULS CC,A,B,DP,X,Y,U,PC`. -/
theorem test_puls_all :
    steps { holding 0x5FF4 [0x0A, 0xA1, 0xB2, 0xC8, 0x12, 0x34, 0x56, 0x78, 0x9A, 0xBC, 0xE1, 0x23] (start [0x35, 0xFF]) with
        s := 0x5FF4, cc := 0x85 }
      (fun t => t.a == 0xA1 && t.b == 0xB2 && t.x == 0x1234 && t.y == 0x5678 && t.u == 0x9ABC && t.s == 0x6000 &&
        t.dp == 0xC8 && t.cc == 0x0A && t.pc == 0xE123) = true := by
  decide

/-- T220, `PULU S`. -/
theorem test_pulu_s :
    steps { holding 0x4FFE [0xC8, 0x80] (start [0x37, 0x40]) with u := 0x4FFE, cc := 0x85 }
      (fun t => t.u == 0x5000 && t.s == 0xC880 && t.pc == 0x0102 && t.cc == 0x85) = true := by
  decide

/-- T227, `TFR X,S`. -/
theorem test_tfr_to_s :
    steps { start [0x1F, 0x14] with x := 0xCBFF, s := 0x0000, cc := 0x00 }
      (fun t => t.s == 0xCBFF && t.pc == 0x0102 && t.cc == 0x00) = true := by
  decide

/-- T234, `EXG X,PC`. -/
theorem test_exg_with_pc :
    steps { start [0x1E, 0x15] with x := 0x3000, cc := 0x00 }
      (fun t => t.x == 0x0102 && t.pc == 0x3000 && t.cc == 0x00) = true := by
  decide

/-- T287, `SWI2 (prefixed INH, 2)`. -/
theorem test_swi2 :
    steps { holding 0xFFF5 [0x00] (holding 0xFFF4 [0x02] (start [0x10, 0x3F])) with s := 0x6000, cc := 0x00 }
      (fun t => t.s == 0x5FF4 && t.pc == 0x0200 && Memory.read t.mem 0x5FFF == 0x02 &&
        Memory.read t.mem 0x5FFE == 0x01 && Memory.read t.mem 0x5FFD == 0x00 &&
        Memory.read t.mem 0x5FFC == 0x50 && Memory.read t.mem 0x5FFB == 0x00 &&
        Memory.read t.mem 0x5FFA == 0x40 && Memory.read t.mem 0x5FF9 == 0x00 &&
        Memory.read t.mem 0x5FF8 == 0x30 && Memory.read t.mem 0x5FF7 == 0x20 &&
        Memory.read t.mem 0x5FF6 == 0x22 && Memory.read t.mem 0x5FF5 == 0x11 &&
        Memory.read t.mem 0x5FF4 == 0x80 && t.cc == 0x80) = true := by
  decide

/-- T126, `LDA ,--S`. -/
theorem test_lda_dec2_s :
    steps (holding 0x5FFE [0xAC] (start [0xA6, 0xE3]))
      (fun t => t.a == 0xAC && t.s == 0x5FFE && t.pc == 0x0102 && t.cc == 0x08) = true := by
  decide

/-- T149, `LDA [0x2010]`. -/
theorem test_lda_extended_indirect :
    steps (holding 0x2011 [0x34] (holding 0x2010 [0x12] (holding 0x1234 [0xC2] (start [0xA6, 0x9F, 0x20, 0x10]))))
      (fun t => t.a == 0xC2 && t.pc == 0x0104 && t.cc == 0x08) = true := by
  decide

/-- T294, `STD 0xFFFF (second byte wraps to 0x0000)`. -/
theorem test_std_wraps :
    steps { start [0xFD, 0xFF, 0xFF] with a := 0x12, b := 0x34, cc := 0x00 }
      (fun t => t.pc == 0x0103 && Memory.read t.mem 0xFFFF == 0x12 && Memory.read t.mem 0x0000 == 0x34 &&
        t.cc == 0x00) = true := by
  decide

/-- T284, `LDY 0,X 16-bit offset (prefixed IDX, 5)`. -/
theorem test_ldy_five_bytes :
    steps { holding 0x2001 [0x01] (holding 0x2000 [0x00] (start [0x10, 0xAE, 0x89, 0x00, 0x00])) with
        x := 0x2000, cc := 0x00 }
      (fun t => t.y == 0x0001 && t.pc == 0x0105 && t.cc == 0x00) = true := by
  decide

/-! ### Interrupts, waits, reset (95_test_vectors 2.15) -/

/-- The start state with the vectors of 95_test_vectors 2.15 and `NOP` at 0x0100. -/
def vectored : State :=
  holding 0xFFF2 [0x07, 0x00, 0x06, 0x00, 0x03, 0x00, 0x02, 0x00, 0x05, 0x00, 0x04, 0x00, 0xE0, 0x00]
    { start [0x12, 0x12] with nmiArmed := true }

/-- I1: IRQ is taken, the stacked CC has E set and the old I. -/
theorem test_irq_taken :
    steps { vectored with cc := 0x05, inputs := [[.irqExt true]] }
      (fun t => t.pc == 0x0200 && t.s == 0x5FF4 && t.cc == 0x95 && Memory.read t.mem 0x5FF4 == 0x85 &&
        Memory.read t.mem 0x5FFE == 0x01 && Memory.read t.mem 0x5FFF == 0x00) = true := by
  decide

/-- I2: a masked IRQ lets the instruction execute. -/
theorem test_irq_masked :
    steps { vectored with cc := 0x10, inputs := [[.irqExt true]] }
      (fun t => t.pc == 0x0101 && t.s == 0x6000 && t.cc == 0x10 && t.irqExt) = true := by
  decide

/-- I3: FIRQ stacks three bytes with E clear. -/
theorem test_firq_taken :
    steps { vectored with cc := 0x8A, inputs := [[.firq true]] }
      (fun t => t.pc == 0x0300 && t.s == 0x5FFD && t.cc == 0x5A && Memory.read t.mem 0x5FFD == 0x0A &&
        Memory.read t.mem 0x5FFE == 0x01 && Memory.read t.mem 0x5FFF == 0x00) = true := by
  decide

/-- I5: an edge on NMI before S was loaded is lost. -/
theorem test_nmi_not_armed :
    steps { vectored with nmiArmed := false, inputs := [[.nmiEdge]] }
      (fun t => t.pc == 0x0101 && !t.nmiPending) = true := by
  decide

/-- I6, its first step: NMI comes before FIRQ and IRQ. -/
theorem test_nmi_first :
    steps { vectored with inputs := [[.irqExt true, .firq true, .nmiEdge]] }
      (fun t => t.pc == 0x0400 && t.s == 0x5FF4 && t.cc == 0xD0 && !t.nmiPending) = true := by
  decide

/-- I8: `SWI` and `SWI3`. -/
theorem test_swi :
    steps { vectored with mem := placeBytes [0x3F] 0x0100 vectored.mem }
      (fun t => t.pc == 0x0500 && t.s == 0x5FF4 && t.cc == 0xD0 && Memory.read t.mem 0x5FF4 == 0x80 &&
        Memory.read t.mem 0x5FFF == 0x01) = true := by
  decide

theorem test_swi3 :
    steps { vectored with mem := placeBytes [0x11, 0x3F] 0x0100 vectored.mem }
      (fun t => t.pc == 0x0700 && t.s == 0x5FF4 && t.cc == 0x80 && Memory.read t.mem 0x5FFF == 0x02) = true := by
  decide

/-- I9: `RTI` with an entire frame. -/
theorem test_rti_entire :
    steps { holding 0x5FF4 [0x85, 0xA1, 0xB2, 0xC8, 0x12, 0x34, 0x56, 0x78, 0x9A, 0xBC, 0xE1, 0x23] (start [0x3B])
      with
        s := 0x5FF4 }
      (fun t => t.a == 0xA1 && t.b == 0xB2 && t.dp == 0xC8 && t.x == 0x1234 && t.y == 0x5678 && t.u == 0x9ABC &&
        t.pc == 0xE123 && t.s == 0x6000 && t.cc == 0x85) = true := by
  decide

/-- I9: `RTI` with a fast frame. -/
theorem test_rti_fast :
    steps { holding 0x5FFD [0x05, 0xE1, 0x23] (start [0x3B]) with s := 0x5FFD }
      (fun t => t.a == 0x11 && t.u == 0x5000 && t.pc == 0xE123 && t.s == 0x6000 && t.cc == 0x05) = true := by
  decide

/-- S6: `CWAI` pushes the entire frame once and waits. -/
theorem test_cwai :
    steps { start [0x3C, 0xEF] with cc := 0x55 }
      (fun t => t.cc == 0xC5 && t.s == 0x5FF4 && t.wait == .cwai && t.pc == 0x0102 &&
        Memory.read t.mem 0x5FF4 == 0xC5 && Memory.read t.mem 0x5FFF == 0x02) = true := by
  decide

/-- S6, its fourth step: IRQ ends the wait of `CWAI` and pushes nothing more. -/
theorem test_cwai_taken :
    steps { vectored with cc := 0xC5, s := 0x5FF4, pc := 0x0102, wait := .cwai, inputs := [[.irqExt true]] }
      (fun t => t.cc == 0xD5 && t.s == 0x5FF4 && t.wait == .running && t.pc == 0x0200) = true := by
  decide

/-- I10, its third step: a masked line ends the wait of `SYNC` and the next instruction executes in the same step. -/
theorem test_sync_ends_masked :
    steps { vectored with cc := 0x50, pc := 0x0101, wait := .sync, inputs := [[.irqExt true]] }
      (fun t => t.cc == 0x50 && t.pc == 0x0102 && t.wait == .running && t.s == 0x6000) = true := by
  decide

/-- I11, its third step: FIRQ ends the wait of `WAI` with the fast frame. -/
theorem test_wai_taken :
    steps { vectored with cc := 0x10, pc := 0x0101, wait := .wai, inputs := [[.firq true]] }
      (fun t => t.cc == 0x50 && t.pc == 0x0300 && t.wait == .running && t.s == 0x5FFD &&
        Memory.read t.mem 0x5FFD == 0x10) = true := by
  decide

/-- I12, its first step: the edge is dropped, then `LDS` arms NMI. -/
theorem test_lds_arms_nmi :
    steps { start [0x10, 0xCE, 0xC8, 0x80] with inputs := [[.nmiEdge]] }
      (fun t => t.s == 0xC880 && t.nmiArmed && !t.nmiPending) = true := by
  decide

/-- 70_reset_and_hazards R280: the release of RESET loads PC from 0xFFFE and sets I and F; here `NOP` at 0xE000 then
executes. -/
theorem test_reset_released :
    steps { holding 0xE000 [0x12] vectored with resetLine := true, wait := .cwai, inputs := [[.reset false]] }
      (fun t => t.pc == 0xE001 && t.dp == 0x00 && t.cc == 0x50 && t.wait == .running && !t.nmiArmed &&
        t.s == 0x6000) = true := by
  decide

/-- 95_test_vectors 2.13: unassigned bytes stop the run by name. -/
theorem test_unassigned_refused :
    (match step (start [0x87]) with | .refused (.unassignedOpcode op) => op == 0x87 | _ => false) = true ∧
    (match step (start [0x10, 0x20]) with
      | .refused (.unassignedSubOpcode p op) => p == 0x10 && op == 0x20
      | _ => false) = true := by
  decide

/-! ### The VIA (95_test_vectors 2.16) -/

/-- The start state of 95_test_vectors 2.16. -/
def device : Via :=
  { Via.reset with t1c := 0x1234, t1l := 0x5678, t2c := 0x9ABC, t2ll := 0xDE, sr := 0xA5, pa := 0x5A, pb := 0xC3 }

/-- W1: values read back after reset. -/
theorem test_via_reset_values :
    [0, 1, 2, 3, 11, 12, 13, 14, 15].map (fun r => (viaRead .highOnly r device).1) =
      [0xC3, 0x5A, 0x00, 0x00, 0x00, 0x00, 0x00, 0x80, 0x5A] := by
  decide

/-- W2: outputs carry the output register, inputs the pins. -/
theorem test_via_ports :
    (viaRead .highOnly 1 (viaWrite 1 0xFF (viaWrite 3 0x0F device))).1 = 0x5F ∧
    (viaRead .highOnly 0 (viaWrite 0 0x00 (viaWrite 2 0xF0 device))).1 = 0x03 := by
  decide

/-- W4: timer 1 with N = 3 sets its flag on the fourth tick. -/
theorem test_via_timer1 :
    let v := viaWrite 5 0x00 (viaWrite 4 0x03 device)
    (viaAdvance 3 v).ifr = 0x00 ∧ (viaAdvance 4 v).ifr = 0x40 ∧ (viaAdvance 4 v).t1c = 0xFFFF := by
  decide

/-- W15: one shift out of 0xB1. -/
theorem test_via_shift_out :
    let v := viaAdvance 2 (viaWrite 10 0xB1 (viaWrite 11 0x18 device))
    v.sr = 0x63 ∧ v.srCount = 7 ∧ v.cb2Out = true := by
  decide

/-- W19: the independent-interrupt modes keep the flags of CA2 and CB2. -/
theorem test_via_independent :
    (viaRead .highOnly 1 { viaWrite 12 0x22 device with ifr := 0x1B }).2.ifr = 0x19 := by
  decide

/-- The 16-bit store hazard of 95_test_vectors 2.16: A goes to register 4, B to register 5 and starts the timer. -/
theorem test_via_word_store :
    (viaWrite 5 0x00 (viaWrite 4 0x10 device)).t1c = 0x0010 := by
  decide

/-- 60_exceptions R260: in mode 101 a pulse lasts one tick, and no tick lifts a line that mode 110 left low. -/
theorem test_via_pulse :
    let low := viaWrite 12 0x0A (viaWrite 12 0x0C device)
    let pulsed := (viaRead .highOnly 1 (viaWrite 12 0x0A device)).2
    (viaTick low).ca2Out = false ∧ pulsed.ca2Out = false ∧ (viaTick pulsed).ca2Out = true := by
  decide

/-- 60_exceptions R258: a shift in takes the level the VIA itself drives while CB2 is an output held high (log 28). -/
theorem test_via_shift_in_output :
    (viaShift { viaWrite 12 0xE0 device with acr := 0x08, srCount := 8, sr := 0x00 }).sr = 0x01 := by
  decide

/-! ### States that meet the hypotheses of the obligations -/

theorem witness_DecodeOfEncode :
    (Instr.exg .a .dp).wf = true ∧ (Instr.exg .pc .d).wf = true ∧ (Instr.unassignedPage10 0x20).wf = true ∧
    (Instr.unassignedPage11 0xFF).wf = true ∧ (Instr.ldyIdx (.off16 .s 0xFFFF true)).wf = true := by
  decide

theorem witness_EncodeOfDecode : ∃ rest, decode [0x10, 0xAE, 0xF9, 0xFF, 0xFF, 0x12] =
    .ok (.ldyIdx (.off16 .s 0xFFFF true)) rest := ⟨_, rfl⟩

theorem witness_StepRunsInstruction :
    let s := { start [0x10, 0x8E, 0x80, 0x00] with inputs := [[.firq false]] }
    (takeInputs s).resetLine = false ∧
    (wakeFromSync (takeInputs s)).wait = .running ∧
    requestedInterrupt (wakeFromSync (takeInputs s)) = none ∧
    BytesAt (wakeFromSync (takeInputs s)) (wakeFromSync (takeInputs s)).pc [0x10, 0x8E, 0x80, 0x00] ∧
    decode [0x10, 0x8E, 0x80, 0x00] = .ok (.ldyImm 0x8000) [] ∧
    ∃ t, exec (.ldyImm 0x8000) ((wakeFromSync (takeInputs s)).putPc 0x0104) = .next t :=
  ⟨rfl, rfl, rfl, ⟨rfl, rfl, rfl, rfl, rfl, rfl, rfl, rfl, trivial⟩, rfl, ⟨_, rfl⟩⟩

theorem witness_HighestRequestTaken :
    (let s := { vectored with wait := .cwai, nmiPending := true, firqLine := true, irqExt := true }
     (takeInputs s).resetLine = false ∧ (takeInputs s).wait ≠ .sync ∧
       (wakeFromSync (takeInputs s)).nmiPending = true) ∧
    (let s := { vectored with wait := .wai, firqLine := true, irqExt := true }
     (takeInputs s).resetLine = false ∧ (takeInputs s).wait ≠ .sync ∧
     (wakeFromSync (takeInputs s)).nmiPending = false ∧
     ((wakeFromSync (takeInputs s)).firqLine && !ccF (wakeFromSync (takeInputs s)).cc) = true) ∧
    (let s := { vectored with cc := 0x40, firqLine := true, via := { device with ifr := 0x40, ier := 0x40 } }
     (takeInputs s).resetLine = false ∧ (takeInputs s).wait ≠ .sync ∧
     (wakeFromSync (takeInputs s)).nmiPending = false ∧
     ((wakeFromSync (takeInputs s)).firqLine && !ccF (wakeFromSync (takeInputs s)).cc) = false ∧
     (((wakeFromSync (takeInputs s)).irqExt || ((wakeFromSync (takeInputs s)).via.ifr &&&
        (wakeFromSync (takeInputs s)).via.ier != 0)) && !ccI (wakeFromSync (takeInputs s)).cc) = true) := by
  decide

theorem witness_WaitingChangesNothing :
    (let q := takeInputs { vectored with wait := .cwai, cc := 0x50, firqLine := true, irqExt := true }
     q.resetLine = false ∧ (q.wait = .cwai ∨ q.wait = .wai) ∧ q.nmiPending = false ∧
     (q.firqLine && !ccF q.cc) = false ∧ ((q.irqExt || (q.via.ifr &&& q.via.ier != 0)) && !ccI q.cc) = false) ∧
    (let q := takeInputs { vectored with wait := .wai }
     q.resetLine = false ∧ (q.wait = .cwai ∨ q.wait = .wai) ∧ q.nmiPending = false ∧
     (q.firqLine && !ccF q.cc) = false ∧ ((q.irqExt || (q.via.ifr &&& q.via.ier != 0)) && !ccI q.cc) = false) ∧
    (let q := takeInputs { vectored with wait := .sync }
     q.resetLine = false ∧ q.wait = .sync ∧ q.nmiPending = false ∧ q.firqLine = false ∧
     (q.irqExt || (q.via.ifr &&& q.via.ier != 0)) = false) ∧
    (let q := takeInputs { vectored with wait := .sync, cc := 0x50, firqLine := true }
     q.resetLine = false ∧ q.wait = .sync ∧
     (q.nmiPending || q.firqLine || (q.irqExt || (q.via.ifr &&& q.via.ier != 0))) = true) := by
  decide

/-- RAM at the addresses of a frame. -/
theorem ram_of_all {n : Nat} {a : Word} {p : Params} (h : (addressesUp n a).all (isRam p) = true) :
    ∀ b ∈ addressesUp n a, isRam p b = true := List.all_eq_true.mp h

theorem vectors_plain : ∀ k : Interrupt,
    isPlain vectored.params (vectorOf k) = true ∧ isPlain vectored.params (vectorOf k + 1) = true := by
  intro k
  cases k <;> decide

/-- Also with a frame that wraps: S = 0x000A. -/
theorem witness_EntireFrameEntry :
    Interrupt.swi3 ≠ .firq ∧ Memory.wf vectored.mem = true ∧
    (∀ a ∈ addressesUp 12 (vectored.s - 12), isRam vectored.params a = true) ∧
    (∀ a ∈ addressesUp 12 (0x000A#16 - 12), isRam vectored.params a = true) ∧
    ∀ k, isPlain vectored.params (vectorOf k) = true ∧ isPlain vectored.params (vectorOf k + 1) = true :=
  ⟨by decide, by decide, ram_of_all (by decide), ram_of_all (by decide), vectors_plain⟩

/-- Also with a frame that wraps: S = 0x0001. -/
theorem witness_FastFrameAndCwaiEntry :
    Memory.wf vectored.mem = true ∧ (∀ a ∈ addressesUp 3 (vectored.s - 3), isRam vectored.params a = true) ∧
    (∀ a ∈ addressesUp 3 (0x0001#16 - 3), isRam vectored.params a = true) ∧
    ∀ k, isPlain vectored.params (vectorOf k) = true ∧ isPlain vectored.params (vectorOf k + 1) = true :=
  ⟨by decide, ram_of_all (by decide), ram_of_all (by decide), vectors_plain⟩

theorem witness_ReturnUndoesEntry :
    Memory.wf vectored.mem = true ∧ (∀ a ∈ addressesUp 12 (vectored.s - 12), isRam vectored.params a = true) ∧
    ∀ k, isPlain vectored.params (vectorOf k) = true ∧ isPlain vectored.params (vectorOf k + 1) = true :=
  ⟨by decide, ram_of_all (by decide), vectors_plain⟩

theorem witness_PullUndoesPush :
    Memory.wf vectored.mem = true ∧
    (∀ a ∈ addressesUp 12 (stackPointer .s vectored - 12), isRam vectored.params a = true) ∧
    ∀ a ∈ addressesUp 12 (stackPointer .u vectored - 12), isRam vectored.params a = true :=
  ⟨by decide, ram_of_all (by decide), ram_of_all (by decide)⟩

theorem witness_ResetSequence :
    (takeInputs { vectored with inputs := [[.reset true]] }).resetLine = true ∧
    (let s := { vectored with resetLine := true }
     s.resetLine = true ∧ isPlain s.params 0xFFFE = true ∧ isPlain s.params 0xFFFF = true) := by
  decide

theorem next_of_steps {s : State} {p : State → Bool} (h : steps s p = true) : ∃ t, step s = .next t ∧ p t = true := by
  unfold steps at h
  split at h
  · exact ⟨_, ‹_›, h⟩
  · cases h
  · cases h

theorem witness_StepKeepsInv :
    Inv { vectored with nmiPending := true } ∧ ∃ t, step { vectored with nmiPending := true } = .next t ∧
      true = true :=
  ⟨⟨by decide, by decide, by decide, by decide⟩, next_of_steps (p := fun _ => true) (by decide)⟩

/-- A store of a word at 0xCFFF, whose second byte goes to the VIA. -/
theorem witness_OnlyRamChanges :
    (∃ t, step (start [0xFD, 0xCF, 0xFF]) = .next t ∧ true = true) ∧
    isRam (start [0xFD, 0xCF, 0xFF]).params 0xD000 = false :=
  ⟨next_of_steps (p := fun _ => true) (by decide), by decide⟩

/-- One refusal of each kind, at the ends of the lists. -/
theorem witness_StepRefusesOnlyEncodings :
    (0x14 ∈ unassignedBytes ∧ 0xCF ∈ unassignedBytes ∧ 0x20 ∉ assignedPage10 ∧ 0xFF ∉ assignedPage11) ∧
    (match step (start [0x1E, 0x18]) with | .refused r => r == .illegalRegisterPair | _ => false) = true ∧
    (match step (start [0xA6, 0x87]) with | .refused r => r == .illegalPostbyte 0x87 | _ => false) = true := by
  decide

theorem witness_AssignedInstructionsComplete :
    (Instr.tfr .cc .a).wf = true ∧ isUnassigned (.tfr .cc .a) = false := by
  decide

theorem witness_OnlyLoadsOfSArmNmi :
    (∃ t, exec (.leas (.plain .s false)) vectored = .next t) ∧ ∃ t, exec .rts vectored = .next t :=
  ⟨⟨_, rfl⟩, ⟨_, rfl⟩⟩

theorem witness_OnlyTheseWriteMasksAndWait :
    (∃ t, exec .sev vectored = .next t ∧ writesMasks .sev = false) ∧
    ∃ t, exec .sync vectored = .next t ∧ t.wait ≠ vectored.wait :=
  ⟨⟨_, rfl, rfl⟩, ⟨_, rfl, by decide⟩⟩

/-- A machine with ROM from 0xE000 and nothing from 0x8000 to 0xCFFF. -/
def mapped : State :=
  { vectored with
    params := { Params.default with
      memMap := [{ base := 0xE000, size := 0x2000, kind := .rom }, { base := 0, size := 0x8000, kind := .ram }] } }

theorem witness_BusAccess :
    (isPlain mapped.params 0xFFFF = true ∧ isPlain mapped.params 0x0000 = true) ∧
    (isRam mapped.params 0x7FFF = true ∧ Memory.wf mapped.mem = true) ∧
    addressKind mapped.params 0xE000 = .rom ∧ addressKind mapped.params 0xCFFF = .unmapped ∧
    addressKind mapped.params (0xD00#12 ++ 0#4) = .via ∧ addressKind mapped.params (0xD00#12 ++ 15#4) = .via ∧
    addressKind mapped.params 0xD010 = .unmapped := by
  decide

theorem witness_WordsAreBigEndian :
    Memory.wf vectored.mem = true ∧
    (isRam vectored.params 0x0000 = true ∧ isRam vectored.params 0x0001 = true) ∧
    (isRam vectored.params 0xCFFE = true ∧ isRam vectored.params 0xCFFF = true) ∧
    (isRam vectored.params 0xD010 = true ∧ isRam vectored.params 0xD011 = true) ∧
    isRam vectored.params 0xFFFF = true ∧ 0xFFFF#16 + 1 = 0x0000#16 := by
  decide

theorem witness_MultiplyResult :
    vectored.params.mulFlags = .source ∧
    { vectored with params := { Params.default with mulFlags := .mc6809 } }.params.mulFlags = .mc6809 := by
  decide

theorem witness_DecimalAddition : isBcd 0x99 = true ∧ isBcd 0x00 = true := by decide

theorem witness_LoadAddressResult : (IdxReg.x = .x ∨ IdxReg.x = .y) ∧ (IdxReg.y = .x ∨ IdxReg.y = .y) := by decide

theorem witness_TransferResult : isWide .pc = isWide .d ∧ isWide .cc = isWide .dp ∧ isWide .s ≠ isWide .a := by decide

theorem witness_NopResult : Instr.nop ∈ nopInstrs ∧ Instr.nop8F ∈ nopInstrs := by decide

theorem witness_bit_numbers : (0 < 8 ∧ 7 < 8) ∧ (0 < 7 ∧ 6 < 7) ∧ 0 < 16 ∧ 15 < 16 := by decide

theorem witness_SoftwareInterruptResult :
    swiInstr .swi = some .swi ∧ swiInstr .swi2 = some .swi2 ∧ swiInstr .swi3 = some .swi3 := ⟨rfl, rfl, rfl⟩

theorem witness_ReturnResult :
    ccE (memRead8 0x5FF4 (holding 0x5FF4 [0x85] vectored)).1 = true ∧
    ccE (memRead8 0x5FF4 (holding 0x5FF4 [0x7F] vectored)).1 = false := by
  decide

/-- Bit 7 of port B is open to the statement in two ways: timer 1 does not drive it, or it is an output. -/
theorem witness_PortReads :
    (device.acr.getLsbD 0 = false ∧ device.acr.getLsbD 1 = false ∧ device.acr.getLsbD 7 = false) ∧
    (let v := { device with acr := 0x80, ddrb := 0x80 }
     v.acr.getLsbD 1 = false ∧ v.acr.getLsbD 7 = true ∧ v.ddrb.getLsbD 7 = true) ∧
    ((6 < 7 ∧ 6 < 8) ∧ ¬ 7 < 7 ∧ 7 < 8) := by
  decide

theorem witness_TimersTimeOut :
    device.acr.getLsbD 6 = false ∧ device.acr.getLsbD 5 = false ∧ timer2Shifts device = false ∧
    0 ≤ (0x00#8).toNat * 256 + (loByte device.t1l).toNat ∧
    65535 ≤ (0xFF#8).toNat * 256 + (loByte { device with t1l := 0x00FF }.t1l).toNat ∧
    65535 ≤ (0xFF#8).toNat * 256 + { device with t2ll := 0xFF }.t2ll.toNat := by
  decide

theorem witness_ShiftOutRotates : shiftMode { device with acr := 0x18 } = 6 ∧ 0 < 16 ∧ 15 < 16 := by decide

theorem witness_ControlLineEdges :
    ((0 < 7 ∧ 0 ≠ 2) ∧ 6 < 7 ∧ 6 ≠ 2) ∧ { device with ifr := 0x41 }.ifr.getLsbD 0 = true ∧
    { device with ifr := 0x41 }.ifr.getLsbD 6 = true ∧
    (viaWrite 12 0x0A device).pcr.extractLsb' 1 3 = 5 ∧ device.ca2Pulse = false := by
  decide

end Sys2Proof.Tests
end

/-! # The refusals of a step (O17)

A step can be refused only by its instruction: the fetch hands the decoder bytes until it decides, so a refusal is either
an error of the decoder or the answer of `exec` on a decoded, hence well-formed, instruction. -/

/-! ## The errors of the decoder -/

namespace Sys2Proof

/-- The errors 30_encoding R97 and R99 name; `unlistedOpcode` is not among them. -/
inductive SpecError : DecodeError → Prop where
  | illegalPostbyte {pb : Byte} (h : Machine.isIllegalPostbyte pb = true) : SpecError (.illegalPostbyte pb)
  | illegalRegisterPair : SpecError .illegalRegisterPair

/-- A reader that refuses bytes only with an error of the spec. -/
structure RefusesBySpec {α : Type} (p : List Byte → Parsed α) : Prop where
  bad : ∀ {l : List Byte} {e : DecodeError}, p l = .bad e → SpecError e

theorem RefusesBySpec.andThen {α β : Type} {p : List Byte → Parsed α} {f : α → List Byte → Parsed β}
    (hp : RefusesBySpec p) (hf : ∀ v, RefusesBySpec (f v)) : RefusesBySpec (fun l => (p l).andThen f) := by
  constructor
  intro l e h
  cases hl : p l with
  | more => simp only [hl, andThen_more, reduceCtorEq] at h
  | bad e' =>
    simp only [hl, andThen_bad, Parsed.bad.injEq] at h
    exact h ▸ hp.bad hl
  | ok v rest =>
    simp only [hl, andThen_ok] at h
    exact (hf v).bad h

theorem refusesBySpec_ok {α β : Type} (g : β → α) : ∀ v, RefusesBySpec (fun l => Parsed.ok (g v) l) :=
  fun _ => ⟨fun h => nomatch h⟩

theorem refusesBySpec_bad {α : Type} {e : DecodeError} (he : SpecError e) :
    RefusesBySpec (fun _ => (Parsed.bad e : Parsed α)) :=
  ⟨fun h => Parsed.bad.inj h ▸ he⟩

theorem takeByte_refusesBySpec : RefusesBySpec takeByte := by
  constructor
  intro l e h
  cases l <;> cases h

theorem takeWord_refusesBySpec : RefusesBySpec takeWord :=
  takeByte_refusesBySpec.andThen fun _ => takeByte_refusesBySpec.andThen fun _ => refusesBySpec_ok id _

/-- The fields of a postbyte that name no indexed form: index register, indirect bit and mode. -/
def modeWithoutForm (r : IdxReg) (i : Bool) : Nat → Bool
  | 0 | 2 => i
  | 7 | 10 | 14 => true
  | 15 => !(i && decide (r = .x))
  | _ => false

/-- The list of 30_encoding R97 in terms of the postbyte's fields. -/
theorem isIllegalPostbyte_postbyte (r : IdxReg) (i : Bool) (m : BitVec 4) :
    Machine.isIllegalPostbyte (postbyte r i m) = modeWithoutForm r i m.toNat := by
  revert m
  cases r <;> cases i <;> decide

/-- The modes without a form are those of 30_encoding R97. -/
theorem decodeMode_refusesBySpec (r : IdxReg) (i : Bool) (m : BitVec 4) :
    RefusesBySpec (decodeMode (postbyte r i m) r i m.toNat) := by
  have illegal := isIllegalPostbyte_postbyte r i m
  unfold decodeMode
  split
  case h_1 e | h_3 e =>
    rw [e] at illegal
    cases i with
    | false => exact refusesBySpec_ok id _
    | true => exact refusesBySpec_bad (.illegalPostbyte illegal)
  case h_8 | h_11 => exact takeByte_refusesBySpec.andThen (refusesBySpec_ok _)
  case h_9 | h_12 => exact takeWord_refusesBySpec.andThen (refusesBySpec_ok _)
  case h_13 e =>
    rw [e] at illegal
    cases hx : i && decide (r = .x) with
    | false => exact refusesBySpec_bad (.illegalPostbyte (by rw [illegal, modeWithoutForm, hx]; rfl))
    | true => exact takeWord_refusesBySpec.andThen (refusesBySpec_ok _)
  case h_14 =>
    have without_form : m.toNat = 7 ∨ m.toNat = 10 ∨ m.toNat = 14 := by
      have := m.isLt
      simp only [imp_false] at *
      omega
    refine refusesBySpec_bad (.illegalPostbyte ?_)
    rcases without_form with e | e | e <;> rw [illegal, e] <;> rfl
  all_goals exact refusesBySpec_ok id _

theorem decodeIndexed_refusesBySpec : RefusesBySpec decodeIndexed := by
  refine takeByte_refusesBySpec.andThen fun pb => ?_
  cases h : pb.msb with
  | false => exact refusesBySpec_ok id _
  | true =>
    have := decodeMode_refusesBySpec (idxRegOfBits (pb.extractLsb' 5 2)) (pb.getLsbD 4) (pb.extractLsb' 0 4)
    rwa [postbyte_of_fields pb h] at this

theorem decodeRegPair_refusesBySpec (f : RegCode → RegCode → Instr) : RefusesBySpec (decodeRegPair f) := by
  refine takeByte_refusesBySpec.andThen fun pb => ?_
  split
  · rename_i r1 r2 _ _
    cases Machine.isWide r1 == Machine.isWide r2 with
    | false => exact refusesBySpec_bad .illegalRegisterPair
    | true => exact refusesBySpec_ok id _
  · exact refusesBySpec_bad .illegalRegisterPair

theorem decodeShape_refusesBySpec (sh : Shape) : RefusesBySpec (decodeShape sh) := by
  cases sh with
  | inh i => exact refusesBySpec_ok id _
  | regPair f => exact decodeRegPair_refusesBySpec f
  | indexed f => exact decodeIndexed_refusesBySpec.andThen (refusesBySpec_ok f)
  | imm16 f | extended f | rel16 f => exact takeWord_refusesBySpec.andThen (refusesBySpec_ok f)
  | _ f => exact takeByte_refusesBySpec.andThen (refusesBySpec_ok f)

theorem decodePage_refusesBySpec (table : List (Nat × Shape)) (other : Byte → Instr) :
    RefusesBySpec (decodePage table other) := by
  refine takeByte_refusesBySpec.andThen fun sub => ?_
  cases lookupShape table sub.toNat with
  | some sh => exact decodeShape_refusesBySpec sh
  | none => exact refusesBySpec_ok id _

/-- Every byte but the two prefixes has a row in the primary table (30_encoding R102, R103). -/
theorem mem_primary_keys : ∀ op : Byte, op ≠ 0x10#8 → op ≠ 0x11#8 → op.toNat ∈ primaryTable.map Prod.fst := by
  decide

/-- The decoder refuses bytes only for a postbyte of 30_encoding R97 or a register pair of R99. -/
theorem decode_refusesBySpec : RefusesBySpec decode := by
  refine takeByte_refusesBySpec.andThen fun op => ?_
  by_cases h : op = 0x10#8
  · simp only [h, if_true]
    exact decodePage_refusesBySpec _ _
  · by_cases h' : op = 0x11#8
    · simp only [h', if_true]
      exact decodePage_refusesBySpec _ _
    · simp only [h, h', if_false]
      cases hl : lookupShape primaryTable op.toNat with
      | some sh => exact decodeShape_refusesBySpec sh
      | none => exact absurd (mem_primary_keys op h h') (lookupShape_none.mp hl)

/-! ## What is decoded is well formed -/

theorem decodePage_wf {table : List (Nat × Shape)} {other : Byte → Instr} {pre : Byte}
    (rows : ∀ row ∈ table, row.2.Encodes [pre, BitVec.ofNat 8 row.1])
    (fallback : ∀ sub : Byte, sub.toNat ∉ table.map Prod.fst → (other sub).wf = true)
    {bytes rest : List Byte} {i : Instr} (h : decodePage table other bytes = .ok i rest) : i.wf = true := by
  obtain ⟨sub, l, -, hsub⟩ := andThen_ok_iff.mp h
  cases hl : lookupShape table sub.toNat with
  | some sh =>
    rw [hl] at hsub
    exact (decodeShape_ok (rows _ (lookupShape_some hl)) hsub).1
  | none =>
    rw [hl] at hsub
    cases hsub
    exact fallback sub (lookupShape_none.mp hl)

theorem unassignedPage10_wf_iff (sub : Byte) :
    (Instr.unassignedPage10 sub).wf = true ↔ sub.toNat ∉ assignedPage10 := by
  simp [Instr.wf]

theorem unassignedPage11_wf_iff (sub : Byte) :
    (Instr.unassignedPage11 sub).wf = true ↔ sub.toNat ∉ assignedPage11 := by
  simp [Instr.wf]

/-- The decoder reads only well-formed instructions. -/
theorem decode_wf {bytes rest : List Byte} {i : Instr} (h : decode bytes = .ok i rest) : i.wf = true := by
  obtain ⟨op, l, -, hop⟩ := andThen_ok_iff.mp h
  split at hop
  · exact decodePage_wf page10_encodes (fun sub hs => (unassignedPage10_wf_iff sub).mpr (page10_keys ▸ hs)) hop
  split at hop
  · exact decodePage_wf page11_encodes (fun sub hs => (unassignedPage11_wf_iff sub).mpr (page11_keys ▸ hs)) hop
  split at hop
  · rename_i sh hl
    exact (decodeShape_ok (primary_encodes _ (lookupShape_some hl)) hop).1
  · cases hop

end Sys2Proof

/-! ## The refusals of `exec`, of the fetch and of a step -/

namespace Sys2Proof.Machine

/-- The refusals the spec names (30_encoding R97, R99, R105, 49_pages_10_11 R2900, R3900). -/
inductive SpecRefusal : Refusal → Prop where
  | unassignedOpcode {op : Byte} (h : op ∈ unassignedBytes) : SpecRefusal (.unassignedOpcode op)
  | unassignedPage10 {sub : Byte} (h : sub.toNat ∉ assignedPage10) : SpecRefusal (.unassignedSubOpcode 0x10 sub)
  | unassignedPage11 {sub : Byte} (h : sub.toNat ∉ assignedPage11) : SpecRefusal (.unassignedSubOpcode 0x11 sub)
  | illegalPostbyte {pb : Byte} (h : isIllegalPostbyte pb = true) : SpecRefusal (.illegalPostbyte pb)
  | illegalRegisterPair : SpecRefusal .illegalRegisterPair

/-- An error of the decoder that the spec names is refused under a name of the spec. -/
theorem refusalOf_spec {e : DecodeError} (h : SpecError e) : SpecRefusal (refusalOf e) := by
  cases h with
  | illegalPostbyte hpb => exact .illegalPostbyte hpb
  | illegalRegisterPair => exact .illegalRegisterPair

/-- Every well-formed instruction with a meaning completes. -/
theorem exec_completes {i : Instr} (hw : i.wf = true) (hu : isUnassigned i = false) (s : State) :
    ∃ t, exec i s = .next t := by
  induction i using instr_cases with
  | unary op p =>
    by_cases e : op = .tst
    · exact e ▸ ⟨_, exec_test p s⟩
    · exact ⟨_, exec_unary e p s⟩
  | binary op r src =>
    by_cases e : op = .cmp ∨ op = .bit
    · exact ⟨_, exec_compare e r src s⟩
    · exact ⟨_, exec_binary (not_or.mp e) r src s⟩
  | load8 r src => exact ⟨_, exec_load8 r src s⟩
  | store8 r m => exact ⟨_, exec_store8 r m s⟩
  | addd src => exact ⟨_, exec_addd src s⟩
  | subd src => exact ⟨_, exec_subd src s⟩
  | cmp16 r src => exact ⟨_, exec_cmp16 r src s⟩
  | load16 r src => exact ⟨_, exec_load16 r src s⟩
  | store16 r m => exact ⟨_, exec_store16 r m s⟩
  | lea r ix => exact ⟨_, exec_lea r ix s⟩
  | branch c rr => exact ⟨_, exec_branch c rr s⟩
  | longBranch c disp => exact ⟨_, exec_longBranch c disp s⟩
  | jmp m => exact ⟨_, exec_jmp m s⟩
  | jsr m => exact ⟨_, exec_jsr m s⟩
  | push k mask => exact ⟨_, exec_push k mask s⟩
  | pull k mask => exact ⟨_, exec_pull k mask s⟩
  | exg r1 r2 => exact ⟨_, (exec_exg r1 r2 s).trans (if_pos hw)⟩
  | tfr r1 r2 => exact ⟨_, (exec_tfr r1 r2 s).trans (if_pos hw)⟩
  | swi k i hk => exact ⟨_, exec_swi hk s⟩
  | nop i hi => exact ⟨_, exec_nop hi s⟩
  | unassigned i hi => exact absurd hu (by simp [hi])
  | aba | daa | mul | sex | abx | rts | sev | sync | wai | rti => exact ⟨_, rfl⟩
  | bsr | lbsr | orcc | andcc | cwai => exact ⟨_, rfl⟩

/-- A well-formed unassigned encoding is refused as the spec says: by a byte of 30_encoding R105, or by a sub-opcode that no
row of its page lists. -/
theorem exec_unassigned_spec {i : Instr} (hw : i.wf = true) (hu : isUnassigned i = true) (s : State) :
    ∃ r, exec i s = .refused r ∧ SpecRefusal r := by
  unfold isUnassigned at hu
  split at hu
  case h_21 sub => exact ⟨_, rfl, .unassignedPage10 ((unassignedPage10_wf_iff sub).mp hw)⟩
  case h_22 sub => exact ⟨_, rfl, .unassignedPage11 ((unassignedPage11_wf_iff sub).mp hw)⟩
  case h_23 => cases hu
  all_goals exact ⟨_, rfl, .unassignedOpcode (by decide)⟩

/-- A well-formed instruction is refused only if the spec refuses it. -/
theorem exec_refused_spec {i : Instr} {s : State} {r : Refusal} (hw : i.wf = true) (h : exec i s = .refused r) :
    SpecRefusal r := by
  cases hu : isUnassigned i with
  | false =>
    obtain ⟨t, ht⟩ := exec_completes hw hu s
    cases h.symm.trans ht
  | true =>
    obtain ⟨r', hr, hspec⟩ := exec_unassigned_spec hw hu s
    cases h.symm.trans hr
    exact hspec

/-- The fetch answers what the decoder says of the bytes it fetched. -/
theorem fetchFrom_decodes (n : Nat) (pre : List Byte) (s : State) : ∃ bytes, decode bytes = (fetchFrom n pre s).1 := by
  induction n generalizing pre s with
  | zero => exact ⟨pre, rfl⟩
  | succ n ih =>
    unfold fetchFrom
    split
    · exact ih _ _
    · exact ⟨pre, ‹_›⟩
    · exact ⟨pre, ‹_›⟩

/-- An instruction is run to a refusal only if the spec refuses its bytes. -/
theorem runInstruction_refused_spec {s : State} {r : Refusal} (h : runInstruction s = .refused r) : SpecRefusal r := by
  obtain ⟨bytes, hd⟩ := fetchFrom_decodes 5 [] s
  unfold runInstruction at h
  simp only at h
  split at h
  · rename_i i rest e
    exact exec_refused_spec (decode_wf (hd.trans e)) h
  · rename_i err e
    cases h
    exact refusalOf_spec (decode_refusesBySpec.bad (hd.trans e))
  · rename_i e
    exact absurd e (fetchFrom_decided (by simp))

/-- Of what the processor does at a sampling point, only the running of an instruction can be refused. -/
theorem perform_refused {s : State} {r : Refusal} (h : perform s = .refused r) : runInstruction s = .refused r := by
  unfold perform at h
  split at h
  · cases h
  · exact h
  · cases h

/-- A refused step is the refusal of the instruction it runs. -/
theorem step_refused {s : State} {r : Refusal} (h : step s = .refused r) :
    runInstruction (wakeFromSync (takeInputs s)) = .refused r := by
  unfold step stepOnce at h
  simp only at h
  split at h
  · cases h
  · unfold finishOutcome at h
    split at h
    · cases h
    · cases h
    · rename_i r' hr
      cases h
      exact perform_refused hr

/-- Settles O17: the refusal of a step is that of the instruction it runs, and `SpecRefusal` lists those. -/
theorem stepRefusesOnlyEncodings : Obligations.StepRefusesOnlyEncodings := by
  intro s r h
  cases runInstruction_refused_spec (step_refused h) with
  | unassignedOpcode hop => exact .inl ⟨_, hop, rfl⟩
  | unassignedPage10 hsub => exact .inr (.inl ⟨_, hsub, rfl⟩)
  | unassignedPage11 hsub => exact .inr (.inr (.inl ⟨_, hsub, rfl⟩))
  | illegalPostbyte hpb => exact .inr (.inr (.inr (.inl ⟨_, hpb, rfl⟩)))
  | illegalRegisterPair => exact .inr (.inr (.inr (.inr rfl)))

end Sys2Proof.Machine

/-! # The state: reset, the places of the flags, and who may write the masks (O12, O14, O50, O21) -/

namespace Sys2Proof.Machine

/-! ## Reset and the flags of CC -/

/-- Settles O12: each value is the one the spec gives at reset. -/
theorem resetState : Obligations.ResetState :=
  ⟨rfl, rfl, rfl, rfl, rfl, rfl, rfl, rfl, rfl, rfl, rfl, rfl, rfl, rfl, rfl, rfl, rfl, rfl, rfl, rfl, rfl, rfl, rfl, rfl⟩

/-- Settles O14: memory is empty, no shift is left, no NMI is pending, and the processor runs. -/
theorem invAtReset : Obligations.InvAtReset where
  memory := rfl
  shiftCount := Nat.zero_le 8
  nmi := nofun
  entire := nofun

/-- `SEV` sets bit 1. -/
theorem putV_true_getLsbD (cc : Byte) {n : Nat} (hn : n < 8) :
    (putV true cc).getLsbD n = (cc.getLsbD n || n == 1) := by
  have hmask : ∀ m < 8, (0x02#8).getLsbD m = (m == 1) := by decide
  rw [putV, putMask, if_pos rfl, BitVec.getLsbD_or, hmask n hn]

/-- Setting V changes no other flag. -/
theorem putCc_putV_frame (bit : Bool) (s : State) : SameBut [.flag .v] s (s.putCc (putV bit s.cc)) := by
  rw [sameBut_iff]; simp

/-- Settles O50: `ORCC` and `ANDCC` are the word operations on CC, `SEV` the mask of bit 1. -/
theorem conditionCodeResult : Obligations.ConditionCodeResult := by
  intro ii s
  refine ⟨⟨rfl, rfl, rfl, rfl, rfl, rfl, rfl, rfl⟩, ?orcc, ?andcc, ?sev⟩
  case orcc => exact ⟨s.putCc (s.cc ||| ii), rfl, fun _ _ => BitVec.getLsbD_or, putCc_frame _ s⟩
  case andcc => exact ⟨s.putCc (s.cc &&& ii), rfl, fun _ _ => BitVec.getLsbD_and, putCc_frame _ s⟩
  case sev =>
    exact ⟨s.putCc (putV true s.cc), rfl, fun _ hn => putV_true_getLsbD s.cc hn, putCc_putV_frame true s⟩

/-! ## More frames: pulls, interrupts, register transfers -/

theorem pull8_frame (k : StackReg) (s : State) : SameBut [k.part, .via, .draws] s (pull8 k s).2 :=
  (pull8_step (pulled0 k s)).2.2

theorem pull16_frame (k : StackReg) (s : State) : SameBut [k.part, .via, .draws] s (pull16 k s).2 :=
  (pull16_step (pulled0 k s)).2.2

theorem putPc_frame (v : Word) (s : State) : SameBut [.pc] s (s.putPc v) := by
  rw [sameBut_iff]; simp

theorem pullRegs_frame (k : StackReg) (mask : Byte) (s : State) :
    SameBut ([.via, .draws] ++ pullState) s (pullRegs k mask s) :=
  (readUp_frame _ _ s).trans (pullRegs_spec k mask s).1.same

/-- A pull whose mask leaves CC out keeps CC. -/
theorem pullRegs_cc {k : StackReg} {mask : Byte} (h : mask.getLsbD 0 = false) (s : State) :
    (pullRegs k mask s).cc = s.cc := by
  obtain ⟨-, hcc, -⟩ := pullRegs_spec k mask s
  exact hcc.trans (if_neg (Bool.eq_false_iff.mp h))

theorem loadVector_frame (v : Word) (s : State) : SameBut [.via, .draws, .pc] s (loadVector v s) :=
  (memRead16_frame v s).trans (putPc_frame _ _)

theorem regWrite8_frame (r : RegCode) (v : Byte) (s : State) : SameBut (codeParts r) s (regWrite8 r v s) := by
  cases r
  case cc => exact putCc_frame v s
  all_goals rw [sameBut_iff]; simp [regWrite8, codeParts]

theorem regWrite16_frame (r : RegCode) (v : Word) (s : State) : SameBut (codeParts r) s (regWrite16 r v s) := by
  cases r
  case cc => exact SameBut.refl _ s
  all_goals rw [sameBut_iff]; simp [regWrite16, codeParts]

theorem exchangeRegs_frame (r1 r2 : RegCode) (s : State) :
    SameBut (codeParts r1 ++ codeParts r2) s (exchangeRegs r1 r2 s) := by
  unfold exchangeRegs
  split
  · exact (regWrite16_frame r1 _ s).trans (regWrite16_frame r2 _ _)
  · exact (regWrite8_frame r1 _ s).trans (regWrite8_frame r2 _ _)

theorem transferReg_frame (r1 r2 : RegCode) (s : State) : SameBut (codeParts r2) s (transferReg r1 r2 s) := by
  unfold transferReg
  split
  · exact regWrite16_frame r2 _ s
  · exact regWrite8_frame r2 _ s

/-! ## The masks and the wait state -/

/-- The pieces O21 protects: E, F, I and the wait state. -/
def controlParts : List Part := [.flag .e, .flag .f, .flag .i, .wait]

/-- From `s` to `t` neither E, F, I nor the wait state changes. -/
structure KeepsControl (s t : State) : Prop where
  e : ccE t.cc = ccE s.cc
  f : ccF t.cc = ccF s.cc
  i : ccI t.cc = ccI s.cc
  wait : t.wait = s.wait

theorem KeepsControl.refl (s : State) : KeepsControl s s := ⟨rfl, rfl, rfl, rfl⟩

theorem KeepsControl.trans {s t u : State} (h : KeepsControl s t) (g : KeepsControl t u) : KeepsControl s u :=
  ⟨g.e.trans h.e, g.f.trans h.f, g.i.trans h.i, g.wait.trans h.wait⟩

/-- An update that leaves CC and the wait state alone. -/
theorem KeepsControl.of_eq {s t : State} (hcc : t.cc = s.cc) (hw : t.wait = s.wait) : KeepsControl s t :=
  ⟨by rw [hcc], by rw [hcc], by rw [hcc], hw⟩

/-- A frame that lists no control piece. -/
theorem KeepsControl.of_frame {l : List Part} {s t : State} (h : SameBut l s t) (hl : ∀ p ∈ controlParts, p ∉ l) :
    KeepsControl s t :=
  ⟨h (.flag .e) (hl _ (by decide)), h (.flag .f) (hl _ (by decide)), h (.flag .i) (hl _ (by decide)),
    h .wait (hl _ (by decide))⟩

/-! ### Operands -/

theorem MemMode.touches_no_control (m : MemMode) : ∀ p ∈ controlParts, p ∉ m.touches := by
  rcases m.touches_cases with h | ⟨r, h⟩ <;> rw [h]
  · decide
  · cases r <;> decide

theorem MemMode.address_keepsControl (m : MemMode) (s : State) : KeepsControl s (m.address s).2 :=
  .of_frame (m.address_frame s) m.touches_no_control

theorem Source8.read_keepsControl (src : Source8) (s : State) : KeepsControl s (src.read s).2 := by
  cases src with
  | imm ii => exact .refl s
  | mem m => exact .of_frame (operand8_frame m s) m.touches_no_control

theorem Source16.read_keepsControl (src : Source16) (s : State) : KeepsControl s (src.read s).2 := by
  cases src with
  | imm v => exact .refl s
  | mem m => exact .of_frame (operand16_frame m s) m.touches_no_control

theorem Place.operand_keepsControl (p : Place) (s : State) : KeepsControl s (p.operand s).2 := by
  cases p with
  | acc r => exact .refl s
  | mem m => exact .of_frame (operand8_frame m s) m.touches_no_control

/-! ### Results -/

theorem putFlags_keepsControl (f : FlagEffects) (s : State) : KeepsControl s (putFlags f s) :=
  ⟨putFlags_ccE f s, putFlags_ccF f s, putFlags_ccI f s, putFlags_wait f s⟩

theorem memWrite8_keepsControl (a : Word) (v : Byte) (s : State) : KeepsControl s (memWrite8 a v s) :=
  .of_frame (memWrite8_frame a v s) (by decide)

theorem memWrite16_keepsControl (a v : Word) (s : State) : KeepsControl s (memWrite16 a v s) :=
  .of_frame (memWrite16_frame a v s) (by decide)

theorem writeAcc_keepsControl (r : Acc) (v : Byte) (s : State) : KeepsControl s (writeAcc r v s) :=
  .of_frame (writeAcc_frame r v s) (by cases r <;> decide)

theorem loadReg16_keepsControl (r : Reg16) (v : Word) (s : State) : KeepsControl s (loadReg16 r v s) :=
  .of_frame (loadReg16_frame r v s) (by cases r <;> decide)

theorem Place.leave_keepsControl (p : Place) (result : Byte) (s : State) : KeepsControl s (p.leave result s) := by
  cases p with
  | acc r => exact writeAcc_keepsControl r result s
  | mem m =>
    exact (KeepsControl.of_frame (operand8_frame m s) m.touches_no_control).trans (memWrite8_keepsControl _ _ _)

theorem operateAcc_keepsControl (f : Binary8) (r : Acc) (m : Byte × State) :
    KeepsControl m.2 (operateAcc f r m) :=
  (writeAcc_keepsControl r _ m.2).trans (putFlags_keepsControl _ _)

theorem operateD_keepsControl (f : Word → Word → Word × FlagEffects) (m : Word × State) :
    KeepsControl m.2 (operateD f m) :=
  (loadReg16_keepsControl .d _ m.2).trans (putFlags_keepsControl _ _)

theorem leaState_keepsControl (r : IdxReg) (e : Word × State) : KeepsControl e.2 (leaState r e) := by
  cases r with
  | x => exact (loadReg16_keepsControl .x e.1 e.2).trans (putFlags_keepsControl _ _)
  | y => exact (loadReg16_keepsControl .y e.1 e.2).trans (putFlags_keepsControl _ _)
  | u => exact loadReg16_keepsControl .u e.1 e.2
  | s => exact loadReg16_keepsControl .s e.1 e.2

/-! ### Control transfer and stacks -/

theorem putPc_keepsControl (v : Word) (s : State) : KeepsControl s (s.putPc v) := .of_eq rfl rfl

theorem branch_keepsControl (c : Cond) (target : Word) (s : State) : KeepsControl s (branch c target s) := by
  unfold branch
  split
  · exact putPc_keepsControl _ s
  · exact .refl s

theorem pushBytes_keepsControl (k : StackReg) (l : List Byte) (s : State) : KeepsControl s (pushBytes k l s) :=
  .of_frame (pushBytes_frame k l s) (by cases k <;> decide)

theorem callTo_keepsControl (e : Word × State) : KeepsControl e.2 (callTo e) :=
  (pushBytes_keepsControl .s (pushedWord e.2.pc) e.2).trans (putPc_keepsControl e.1 _)

theorem pushRegs_keepsControl (k : StackReg) (mask : Byte) (s : State) : KeepsControl s (pushRegs k mask s) := by
  rw [pushRegs_eq]
  exact pushBytes_keepsControl k _ s

theorem pullRegs_wait (k : StackReg) (mask : Byte) (s : State) : (pullRegs k mask s).wait = s.wait :=
  pullRegs_frame k mask s .wait (by decide)

/-! ### Register transfers -/

theorem wait_not_mem_codeParts (r : RegCode) : Part.wait ∉ codeParts r := by
  cases r <;> decide

/-- Of the registers of `EXG` and `TFR` only CC holds control pieces. -/
theorem codeParts_no_control {r : RegCode} (h : r ≠ .cc) : ∀ p ∈ controlParts, p ∉ codeParts r := by
  cases r
  case cc => exact absurd rfl h
  all_goals decide

/-! ### Interrupts: CC is written, the wait state is not -/

theorem enterInterrupt_stack_wait (k : Interrupt) (s : State) : (enterInterrupt k true s).wait = s.wait := by
  have hvector (v : Word) (x : State) : (loadVector v x).wait = x.wait := loadVector_frame v x .wait (by decide)
  have hframe : (storeDown (frameBytes k s) s.s s).wait = s.wait := storeDown_frame _ _ s .wait (by decide)
  rw [enterInterrupt_stack, hvector, putNmiPending_wait, putS_wait, putCc_wait, hframe]

theorem returnFromInterrupt_wait (s : State) : (returnFromInterrupt s).wait = s.wait := by
  have hpull8 : (pullInto8 .s State.putCc s).wait = s.wait := pull8_frame .s s .wait (by decide)
  have hregs : ∀ x : State, (if ccE x.cc then pullRegs .s 0x7E#8 x else x).wait = x.wait := by
    intro x
    split
    · exact pullRegs_wait _ _ x
    · rfl
  have hpull16 : ∀ x : State, (pullInto16 .s State.putPc x).wait = x.wait :=
    fun x => pull16_frame .s x .wait (by decide)
  simp only [returnFromInterrupt, hpull16, hregs, hpull8]

/-! ### Every instruction -/

/-- What O21 asks of an instruction that answers `t` in `s`. -/
structure Disciplined (i : Instr) (s t : State) : Prop where
  masks : writesMasks i = false → ∀ k : Flag, k = .e ∨ k = .f ∨ k = .i → k.read t = k.read s
  wait : t.wait ≠ s.wait → i = .sync ∨ i = .wai ∨ ∃ ii, i = .cwai ii

theorem KeepsControl.masks {s t : State} (h : KeepsControl s t) :
    ∀ k : Flag, k = .e ∨ k = .f ∨ k = .i → k.read t = k.read s := by
  rintro k (rfl | rfl | rfl)
  · exact h.e
  · exact h.f
  · exact h.i

/-- Starting a wait leaves the masks alone. -/
theorem putWait_masks (v : Wait) (s : State) :
    ∀ k : Flag, k = .e ∨ k = .f ∨ k = .i → k.read (s.putWait v) = k.read s := by
  rintro k (rfl | rfl | rfl) <;> rfl

theorem KeepsControl.disciplined {i : Instr} {s t : State} (h : KeepsControl s t) : Disciplined i s t :=
  ⟨fun _ => h.masks, fun hne => absurd h.wait hne⟩

/-- An instruction that keeps the wait state, and the masks unless it is one that may write them. -/
theorem Disciplined.of_wait {i : Instr} {s t : State} (hw : t.wait = s.wait)
    (hm : writesMasks i = false → KeepsControl s t) : Disciplined i s t :=
  ⟨fun h => (hm h).masks, fun hne => absurd hw hne⟩

theorem exchangeRegs_disciplined (r1 r2 : RegCode) (s : State) :
    Disciplined (.exg r1 r2) s (exchangeRegs r1 r2 s) := by
  have hframe := exchangeRegs_frame r1 r2 s
  refine .of_wait (hframe .wait ?_) fun hm => .of_frame hframe fun p hp => ?_
  · simp [wait_not_mem_codeParts]
  · obtain ⟨h1, h2⟩ : r1 ≠ .cc ∧ r2 ≠ .cc := by simpa [writesMasks] using hm
    simp [codeParts_no_control h1 p hp, codeParts_no_control h2 p hp]

theorem transferReg_disciplined (r1 r2 : RegCode) (s : State) :
    Disciplined (.tfr r1 r2) s (transferReg r1 r2 s) := by
  have hframe := transferReg_frame r1 r2 s
  refine .of_wait (hframe .wait (wait_not_mem_codeParts r2)) fun hm => .of_frame hframe (codeParts_no_control ?_)
  simpa [writesMasks] using hm

theorem pullRegs_disciplined (k : StackReg) (mask : Byte) (s : State) :
    Disciplined (pullInstr k mask) s (pullRegs k mask s) := by
  have hw := pullRegs_wait k mask s
  refine .of_wait hw fun hm => .of_eq (pullRegs_cc ?_ s) hw
  cases k <;> exact hm

theorem swiInstr_writesMasks {k : Interrupt} {i : Instr} (h : swiInstr k = some i) : writesMasks i = true := by
  cases k <;> cases h <;> rfl

/-- Every instruction is disciplined: most keep every control piece, the writers of CC keep the wait state, and the three
waits are the ones O21 names. -/
theorem exec_disciplined {i : Instr} {s t : State} (h : exec i s = .next t) : Disciplined i s t := by
  induction i using instr_cases with
  | unary op p =>
    by_cases e : op = .tst
    · subst e
      rw [next_eq h (exec_test p s)]
      exact ((p.operand_keepsControl s).trans (putFlags_keepsControl _ _)).disciplined
    · rw [next_eq h (exec_unary e p s), modifyPlace_eq]
      exact ((p.leave_keepsControl _ s).trans (putFlags_keepsControl _ _)).disciplined
  | binary op r src =>
    by_cases e : op = .cmp ∨ op = .bit
    · rw [next_eq h (exec_compare e r src s)]
      exact ((src.read_keepsControl s).trans (putFlags_keepsControl _ _)).disciplined
    · rw [next_eq h (exec_binary (not_or.mp e) r src s)]
      exact ((src.read_keepsControl s).trans (operateAcc_keepsControl _ _ _)).disciplined
  | load8 r src =>
    rw [next_eq h (exec_load8 r src s)]
    exact ((src.read_keepsControl s).trans
      ((writeAcc_keepsControl r _ _).trans (putFlags_keepsControl _ _))).disciplined
  | store8 r m =>
    rw [next_eq h (exec_store8 r m s)]
    exact ((m.address_keepsControl s).trans
      ((putFlags_keepsControl _ _).trans (memWrite8_keepsControl _ _ _))).disciplined
  | addd src =>
    rw [next_eq h (exec_addd src s)]
    exact ((src.read_keepsControl s).trans (operateD_keepsControl _ _)).disciplined
  | subd src =>
    rw [next_eq h (exec_subd src s)]
    exact ((src.read_keepsControl s).trans (operateD_keepsControl _ _)).disciplined
  | cmp16 r src =>
    rw [next_eq h (exec_cmp16 r src s)]
    exact ((src.read_keepsControl s).trans (putFlags_keepsControl _ _)).disciplined
  | load16 r src =>
    rw [next_eq h (exec_load16 r src s)]
    exact ((src.read_keepsControl s).trans
      ((loadReg16_keepsControl r _ _).trans (putFlags_keepsControl _ _))).disciplined
  | store16 r m =>
    rw [next_eq h (exec_store16 r m s)]
    exact ((m.address_keepsControl s).trans
      ((putFlags_keepsControl _ _).trans (memWrite16_keepsControl _ _ _))).disciplined
  | lea r ix =>
    rw [next_eq h (exec_lea r ix s)]
    exact ((MemMode.address_keepsControl (.indexed ix) s).trans (leaState_keepsControl r _)).disciplined
  | aba =>
    rw [next_eq h (u := operateAcc addOp .a (s.b, s)) rfl]
    exact (operateAcc_keepsControl addOp .a (s.b, s)).disciplined
  | daa =>
    rw [next_eq h (u := decimalAdjust s) rfl]
    exact ((writeAcc_keepsControl .a _ s).trans (putFlags_keepsControl _ _)).disciplined
  | mul =>
    rw [next_eq h (u := multiply s) rfl]
    exact ((loadReg16_keepsControl .d _ s).trans (putFlags_keepsControl _ _)).disciplined
  | sex =>
    rw [next_eq h (u := signExtendB s) rfl]
    exact ((writeAcc_keepsControl .a _ s).trans (putFlags_keepsControl _ _)).disciplined
  | abx =>
    rw [next_eq h (u := s.putX (s.x + zeroExtend8 s.b)) rfl]
    exact (loadReg16_keepsControl .x _ s).disciplined
  | branch c rr =>
    rw [next_eq h (exec_branch c rr s)]
    exact (branch_keepsControl _ _ s).disciplined
  | longBranch c disp =>
    rw [next_eq h (exec_longBranch c disp s)]
    exact (branch_keepsControl _ _ s).disciplined
  | jmp m =>
    rw [next_eq h (exec_jmp m s)]
    exact ((m.address_keepsControl s).trans (putPc_keepsControl _ _)).disciplined
  | jsr m =>
    rw [next_eq h (exec_jsr m s)]
    exact ((m.address_keepsControl s).trans (callTo_keepsControl _)).disciplined
  | bsr rr =>
    rw [next_eq h (u := callTo (relTarget8 rr s, s)) rfl]
    exact (callTo_keepsControl (relTarget8 rr s, s)).disciplined
  | lbsr disp =>
    rw [next_eq h (u := callTo (relTarget16 disp s, s)) rfl]
    exact (callTo_keepsControl (relTarget16 disp s, s)).disciplined
  | rts =>
    rw [next_eq h (u := pullInto16 .s State.putPc s) rfl]
    exact ((KeepsControl.of_frame (pull16_frame .s s) (by decide)).trans (putPc_keepsControl _ _)).disciplined
  | push k mask =>
    rw [next_eq h (exec_push k mask s)]
    exact (pushRegs_keepsControl k mask s).disciplined
  | pull k mask =>
    rw [next_eq h (exec_pull k mask s)]
    exact pullRegs_disciplined k mask s
  | exg r1 r2 =>
    rw [exec_exg] at h
    split at h
    · cases h
      exact exchangeRegs_disciplined r1 r2 s
    · cases h
  | tfr r1 r2 =>
    rw [exec_tfr] at h
    split at h
    · cases h
      exact transferReg_disciplined r1 r2 s
    · cases h
  | orcc ii =>
    rw [next_eq h (u := s.putCc (s.cc ||| ii)) rfl]
    exact .of_wait rfl nofun
  | andcc ii =>
    rw [next_eq h (u := s.putCc (s.cc &&& ii)) rfl]
    exact .of_wait rfl nofun
  | sev =>
    rw [next_eq h (u := s.putCc (putV true s.cc)) rfl]
    exact (KeepsControl.of_frame (putCc_putV_frame true s) (by decide)).disciplined
  | sync =>
    rw [next_eq h (u := s.putWait .sync) rfl]
    exact ⟨fun _ => putWait_masks _ s, fun _ => .inl rfl⟩
  | wai =>
    rw [next_eq h (u := s.putWait .wai) rfl]
    exact ⟨fun _ => putWait_masks _ s, fun _ => .inr (.inl rfl)⟩
  | cwai ii => exact ⟨nofun, fun _ => .inr (.inr ⟨ii, rfl⟩)⟩
  | swi k i hk =>
    rw [next_eq h (exec_swi hk s)]
    exact .of_wait (enterInterrupt_stack_wait k s) fun hm => absurd (swiInstr_writesMasks hk) (by simp [hm])
  | rti =>
    rw [next_eq h (u := returnFromInterrupt s) rfl]
    exact .of_wait (returnFromInterrupt_wait s) nofun
  | nop i hi =>
    rw [next_eq h (exec_nop hi s)]
    exact (KeepsControl.refl s).disciplined
  | unassigned i hi =>
    rcases exec_unassigned hi s with ⟨op, e⟩ | ⟨p, op, e⟩ <;> rw [e] at h <;> cases h

/-- Settles O21, shape by shape: only the writers of CC touch the masks, and only `SYNC`, `WAI` and `CWAI` the wait
state. -/
theorem onlyTheseWriteMasksAndWait : Obligations.OnlyTheseWriteMasksAndWait := by
  intro i s t h
  obtain ⟨hmasks, hwait⟩ := exec_disciplined h
  exact ⟨hmasks, hwait⟩

end Sys2Proof.Machine

/-! # Memory: the bytes a step may change, and what a bus access does (O16, O22, O23) -/

namespace Sys2Proof.Machine

/-! ## A whole step -/

/-- A step keeps what its parts keep: the host's events, then either the count of steps alone or the sampling point and the
ticks of the VIA. -/
theorem step_keeps {s t : State} (h : step s = .next t) : Keeps s t := by
  have hin := takeInputs_keeps s
  rcases step_cases h with ⟨-, rfl⟩ | ⟨-, u, hu, rfl⟩
  · exact hin.trans (.of_eq rfl rfl rfl)
  · exact hin.trans ((wakeFromSync_keeps _).trans ((perform_keeps hu).trans (finishStep_keeps u)))

/-- Settles O16: the parameters and the bytes that are not RAM are among what every part of a step keeps. -/
theorem onlyRamChanges : Obligations.OnlyRamChanges :=
  fun _ _ h => ⟨(step_keeps h).params, (step_keeps h).bytes⟩

/-! ## The addresses of the VIA -/

theorem viaAddress_toNat (r : BitVec 4) : (0xD00#12 ++ r).toNat = 0xD000 + r.toNat := by
  revert r; decide

/-- The sixteen addresses from 0xD000 are the VIA in every memory map (20_memory R52). -/
theorem addressKind_viaAddress (p : Params) (r : BitVec 4) : addressKind p (0xD00#12 ++ r) = .via := by
  have hwindow : inViaWindow (0xD00#12 ++ r) = true := by
    have := r.isLt
    simp only [inViaWindow, viaAddress_toNat, Bool.and_eq_true, decide_eq_true_eq]
    omega
  exact if_pos hwindow

/-- The register an address of the window selects is its last digit (60_exceptions R231). -/
theorem viaRegister_viaAddress (r : BitVec 4) : viaRegister (0xD00#12 ++ r) = r := by
  revert r; decide

/-! ## One byte -/

/-- A byte written to RAM is read back from memory. -/
theorem read_memWrite8_same {a : Word} {v : Byte} {s : State} (hram : isRam s.params a = true)
    (hwf : Memory.wf s.mem = true) : Memory.read (memWrite8 a v s).mem a.toNat = v := by
  rw [memWrite8_of_ram hram]
  exact Memory.read_write_same_wf hwf

/-- A write of RAM changes memory alone: it has no side effect on the VIA. -/
theorem memWrite8_ram_frame {a : Word} {v : Byte} {s : State} (hram : isRam s.params a = true) :
    SameBut [.mem] s (memWrite8 a v s) := by
  rw [memWrite8_of_ram hram, sameBut_iff]
  simp

/-- A write of ROM, or where nothing answers, is ignored (20_memory R52, R64). -/
theorem memWrite8_ignored {a : Word} {v : Byte} {s : State}
    (h : addressKind s.params a = .rom ∨ addressKind s.params a = .unmapped) : memWrite8 a v s = s := by
  rcases h with h | h <;> simp only [memWrite8, h]

/-- Settles O22, one clause a kind of address; the ticks before an access to the VIA are those `elapse` draws. -/
theorem busAccess : Obligations.BusAccess := by
  intro a v s
  refine ⟨memRead8_of_plain, fun hram hwf => ?ram, memWrite8_ignored, fun r => ?via⟩
  case ram => exact ⟨read_memWrite8_same hram hwf, memWrite8_ram_frame hram, memWrite8_bytes a v s⟩
  case via =>
    have hkind := addressKind_viaAddress s.params r
    refine ⟨Config.accessTicks s.draws, ?_, ?_⟩
    · rw [memRead8_via hkind, viaRegister_viaAddress]
      rfl
    · rw [memWrite8_via hkind, viaRegister_viaAddress]
      rfl

/-! ## Words -/

/-- The two addresses of a word differ, also where the second wraps to 0 (20_memory R56, R57). -/
theorem ne_succ_address (a : Word) : a ≠ a + 1 := by
  bv_omega

theorem memWrite16_params (a v : Word) (s : State) : (memWrite16 a v s).params = s.params :=
  (memWrite16_keeps a v s).params

/-- The high byte of a word written to RAM stands at the lower address: the second write leaves it alone. -/
theorem read_memWrite16_high {a v : Word} {s : State} (hram : isRam s.params a = true) (hwf : Memory.wf s.mem = true) :
    Memory.read (memWrite16 a v s).mem a.toNat = hiByte v :=
  (memWrite8_other (.inl (ne_succ_address a))).trans (read_memWrite8_same hram hwf)

/-- The low byte of a word written to RAM stands at the next address. -/
theorem read_memWrite16_low {a v : Word} {s : State} (hram : isRam s.params (a + 1) = true)
    (hwf : Memory.wf s.mem = true) : Memory.read (memWrite16 a v s).mem (a + 1).toNat = loByte v :=
  read_memWrite8_same (by rwa [memWrite8_params]) (memWrite8_wf hwf)

/-- Settles O23: the bytes stand where the two writes put them, so the reads find them there. -/
theorem wordsAreBigEndian : Obligations.WordsAreBigEndian := by
  intro a v s hwf hram hram'
  have hhigh := read_memWrite16_high (v := v) hram hwf
  have hlow := read_memWrite16_low (v := v) hram' hwf
  rw [← memWrite16_params a v s] at hram hram'
  have hplain := isPlain_of_isRam hram
  have hplain' := isPlain_of_isRam hram'
  refine ⟨?word, ?high, ?low, memWrite16_bytes a v s⟩
  case word => rw [memRead16_of_plain hplain hplain', wordAt, hhigh, hlow, joinBytes_halves]
  case high => exact (congrArg Prod.fst (memRead8_of_plain hplain)).trans hhigh
  case low => exact (congrArg Prod.fst (memRead8_of_plain hplain')).trans hlow

end Sys2Proof.Machine

/-! # The encoding: decoder against encoder, and what is refused (O1, O2, O3, O4, O19, O51)

Both directions of the round trip go through the row of the opcode map that stands under an instruction's leading bytes:
the decoder hands the bytes after them to that row (`HasRow.decode_eq`), and the encoder writes them before the row's operand
(`HasRow.encodes`). -/

namespace Sys2Proof

/-! ## The row under the leading bytes -/

/-- The row of the opcode map that stands under the leading bytes of an instruction (30_encoding R81, R102, R106, R107). -/
inductive HasRow : List Byte → Shape → Prop where
  | primary {op : Byte} {sh : Shape} (h10 : op ≠ 0x10#8) (h11 : op ≠ 0x11#8)
      (h : lookupShape primaryTable op.toNat = some sh) : HasRow [op] sh
  | page10 {sub : Byte} {sh : Shape} (h : lookupShape page10Table sub.toNat = some sh) : HasRow [0x10, sub] sh
  | page11 {sub : Byte} {sh : Shape} (h : lookupShape page11Table sub.toNat = some sh) : HasRow [0x11, sub] sh

theorem decode_page10 (bytes : List Byte) :
    decode (0x10#8 :: bytes) = decodePage page10Table .unassignedPage10 bytes := rfl

theorem decode_page11 (bytes : List Byte) :
    decode (0x11#8 :: bytes) = decodePage page11Table .unassignedPage11 bytes := rfl

theorem decode_primary {op : Byte} {sh : Shape} (h10 : op ≠ 0x10#8) (h11 : op ≠ 0x11#8)
    (h : lookupShape primaryTable op.toNat = some sh) (bytes : List Byte) :
    decode (op :: bytes) = decodeShape sh bytes := by
  simp only [decode, takeByte_cons, andThen_ok, h10, h11, if_false, h]

theorem decodePage_row {table : List (Nat × Shape)} {other : Byte → Instr} {sub : Byte} {sh : Shape}
    (h : lookupShape table sub.toNat = some sh) (bytes : List Byte) :
    decodePage table other (sub :: bytes) = decodeShape sh bytes := by
  simp only [decodePage, takeByte_cons, andThen_ok, h]

theorem decodePage_fallback {table : List (Nat × Shape)} {other : Byte → Instr} {sub : Byte}
    (h : sub.toNat ∉ table.map Prod.fst) (bytes : List Byte) :
    decodePage table other (sub :: bytes) = .ok (other sub) bytes := by
  simp only [decodePage, takeByte_cons, andThen_ok, lookupShape_none.mpr h]

/-- The decoder reads the bytes after the leading ones under their row. -/
theorem HasRow.decode_eq {head : List Byte} {sh : Shape} (h : HasRow head sh) (bytes : List Byte) :
    decode (head ++ bytes) = decodeShape sh bytes := by
  cases h with
  | primary h10 h11 h => exact decode_primary h10 h11 h bytes
  | page10 h => exact (decode_page10 _).trans (decodePage_row h bytes)
  | page11 h => exact (decode_page11 _).trans (decodePage_row h bytes)

/-- The encoder writes the leading bytes of a row before its operand. -/
theorem HasRow.encodes {head : List Byte} {sh : Shape} (h : HasRow head sh) : sh.Encodes head := by
  cases h with
  | primary _ _ h => simpa using primary_encodes _ (lookupShape_some h)
  | page10 h => simpa using page10_encodes _ (lookupShape_some h)
  | page11 h => simpa using page11_encodes _ (lookupShape_some h)

/-! ## From an instruction to its row -/

/-- An instruction that a row makes from an operand of its format; the registers of a pair have one width
(30_encoding R99). -/
inductive Shape.Makes : Shape → Instr → Prop where
  | inh {i : Instr} : Makes (.inh i) i
  | imm8 {f : Byte → Instr} {v : Byte} : Makes (.imm8 f) (f v)
  | imm16 {f : Word → Instr} {v : Word} : Makes (.imm16 f) (f v)
  | direct {f : Byte → Instr} {v : Byte} : Makes (.direct f) (f v)
  | extended {f : Word → Instr} {v : Word} : Makes (.extended f) (f v)
  | indexed {f : Indexed → Instr} {ix : Indexed} : Makes (.indexed f) (f ix)
  | rel8 {f : Byte → Instr} {v : Byte} : Makes (.rel8 f) (f v)
  | rel16 {f : Word → Instr} {v : Word} : Makes (.rel16 f) (f v)
  | regPair {f : RegCode → RegCode → Instr} {r1 r2 : RegCode} (h : Machine.isWide r1 = Machine.isWide r2) :
      Makes (.regPair f) (f r1 r2)
  | stackMask {f : Byte → Instr} {v : Byte} : Makes (.stackMask f) (f v)

/-- An instruction that a row makes is encoded as the row's leading bytes and an operand, and from that operand the row's
format reads the instruction back. -/
theorem decodeShape_encode {sh : Shape} {head : List Byte} {i : Instr} (he : sh.Encodes head) (hm : sh.Makes i) :
    ∃ operand, encode i = head ++ operand ∧ ∀ rest, decodeShape sh (operand ++ rest) = .ok i rest := by
  cases hm with
  | inh => exact ⟨[], by rw [he.1, List.append_nil], fun _ => rfl⟩
  | @regPair f r1 r2 hw => exact ⟨_, (he r1 r2).1, decodeRegPair_encode f hw⟩
  | @indexed f ix => exact ⟨_, (he ix).1, fun rest => by rw [decodeShape, decodeIndexed_encode, andThen_ok]⟩
  | @imm16 f v | @extended f v | @rel16 f v =>
    exact ⟨_, (he v).1, fun rest => by simp [decodeShape, Machine.joinBytes_halves]⟩
  | @imm8 f v | @direct f v | @rel8 f v | @stackMask f v => exact ⟨_, (he v).1, fun _ => rfl⟩

/-- An instruction with a row decodes from its encoding, whatever follows. -/
theorem HasRow.decode_encode {head : List Byte} {sh : Shape} {i : Instr} (h : HasRow head sh) (hm : sh.Makes i)
    (rest : List Byte) : decode (encode i ++ rest) = .ok i rest := by
  obtain ⟨operand, henc, hdec⟩ := decodeShape_encode h.encodes hm
  rw [henc, List.append_assoc, h.decode_eq, hdec]

/-- The primary page in its blocks of sixteen opcodes (30_encoding R102). -/
def primaryBlocks : List (List (Nat × Shape)) :=
  [rows00, rows10, rows20, rows30, rows40, rows50, rows60, rows70, rows80, rows90, rowsA0, rowsB0, rowsC0, rowsD0, rowsE0,
    rowsF0]

theorem primaryBlocks_flatten : primaryBlocks.flatten = primaryTable := by
  simp only [primaryBlocks, primaryTable, List.flatten_cons, List.flatten_nil, List.append_nil, List.append_assoc]

theorem lookupShape_append (table more : List (Nat × Shape)) (op : Nat) :
    lookupShape (table ++ more) op = (lookupShape table op).or (lookupShape more op) := by
  induction table with
  | nil => rfl
  | cons row rest ih =>
    rw [List.cons_append, lookupShape, lookupShape]
    split
    · rfl
    · exact ih

theorem lookupShape_flatten (blocks : List (List (Nat × Shape))) (op : Nat) :
    lookupShape blocks.flatten op = blocks.findSome? (lookupShape · op) := by
  induction blocks with
  | nil => rfl
  | cons block rest ih =>
    rw [List.flatten_cons, lookupShape_append, ih, List.findSome?_cons]
    cases lookupShape block op <;> rfl

/-- The leading bytes and the row of an instruction on the page of the byte `op`. -/
def pageRow (table : List (Nat × Shape)) (op : Byte) : List Byte → Option (List Byte × Shape)
  | [] => none
  | sub :: _ => (lookupShape table sub.toNat).map ([op, sub], ·)

theorem pageRow_some {table : List (Nat × Shape)} {op : Byte} {bytes head : List Byte} {sh : Shape}
    (h : pageRow table op bytes = some (head, sh)) :
    ∃ sub, head = [op, sub] ∧ lookupShape table sub.toNat = some sh := by
  cases bytes with
  | nil => cases h
  | cons sub _ =>
    obtain ⟨_, hl, e⟩ := Option.map_eq_some_iff.mp h
    cases e
    exact ⟨sub, rfl, hl⟩

/-- The leading bytes of an instruction and the row under them, computed from its bytes; the primary page is searched block
by block, so that no evaluation is as deep as the page is long. -/
def rowOf : List Byte → Option (List Byte × Shape)
  | [] => none
  | op :: bytes =>
    if op = 0x10#8 then pageRow page10Table op bytes
    else if op = 0x11#8 then pageRow page11Table op bytes
    else (primaryBlocks.findSome? (lookupShape · op.toNat)).map ([op], ·)

/-- What `rowOf` computes is a row of the map. -/
theorem hasRow_of_rowOf {bytes head : List Byte} {sh : Shape} (h : rowOf bytes = some (head, sh)) : HasRow head sh := by
  cases bytes with
  | nil => cases h
  | cons op l =>
    simp only [rowOf, ← lookupShape_flatten, primaryBlocks_flatten] at h
    split_ifs at h with h10 h11
    · obtain ⟨sub, rfl, hl⟩ := pageRow_some h
      exact h10 ▸ .page10 hl
    · obtain ⟨sub, rfl, hl⟩ := pageRow_some h
      exact h11 ▸ .page11 hl
    · obtain ⟨_, hl, e⟩ := Option.map_eq_some_iff.mp h
      cases e
      exact .primary h10 h11 hl

/-- Every well-formed instruction is made by the row under the leading bytes of its encoding, or stands for a sub-opcode
that no row of its page lists. -/
theorem row_or_unlisted {i : Instr} (hw : i.wf = true) :
    (∃ head sh, rowOf (encode i) = some (head, sh) ∧ sh.Makes i) ∨
    (∃ sub : Byte, i = .unassignedPage10 sub ∧ sub.toNat ∉ assignedPage10) ∨
    ∃ sub : Byte, i = .unassignedPage11 sub ∧ sub.toNat ∉ assignedPage11 := by
  cases i with
  | exg r1 r2 | tfr r1 r2 => exact .inl ⟨_, _, rfl, .regPair (by simpa [Instr.wf] using hw)⟩
  | unassignedPage10 sub => exact .inr (.inl ⟨sub, rfl, (unassignedPage10_wf_iff sub).mp hw⟩)
  | unassignedPage11 sub => exact .inr (.inr ⟨sub, rfl, (unassignedPage11_wf_iff sub).mp hw⟩)
  | _ => exact .inl ⟨_, _, rfl, by constructor⟩

/-- Settles O1: by the row of the instruction, or by the fallback of its page. -/
theorem decodeOfEncode : Obligations.DecodeOfEncode := by
  intro i rest hw
  rcases row_or_unlisted hw with ⟨head, sh, hrow, hm⟩ | ⟨sub, rfl, hsub⟩ | ⟨sub, rfl, hsub⟩
  · exact (hasRow_of_rowOf hrow).decode_encode hm rest
  · exact (decode_page10 _).trans (decodePage_fallback (page10_keys ▸ hsub) rest)
  · exact (decode_page11 _).trans (decodePage_fallback (page11_keys ▸ hsub) rest)

/-! ## From decoded bytes to their row -/

/-- On a page the decoder reads one of its rows, or takes the sub-opcode for an unassigned one. -/
theorem decodePage_ok {table : List (Nat × Shape)} {other : Byte → Instr} {bytes rest : List Byte} {i : Instr}
    (h : decodePage table other bytes = .ok i rest) :
    (∃ sub sh l, bytes = sub :: l ∧ lookupShape table sub.toNat = some sh ∧ decodeShape sh l = .ok i rest) ∨
    ∃ sub, i = other sub ∧ bytes = sub :: rest := by
  obtain ⟨sub, l, hbyte, hsub⟩ := andThen_ok_iff.mp h
  split at hsub
  · exact .inl ⟨sub, _, l, takeByte_ok hbyte, ‹_›, hsub⟩
  · cases hsub
    exact .inr ⟨sub, rfl, takeByte_ok hbyte⟩

/-- What the decoder accepts it reads under a row of the map, or as an unassigned sub-opcode of a page. -/
theorem decode_ok {bytes rest : List Byte} {i : Instr} (h : decode bytes = .ok i rest) :
    (∃ head sh l, HasRow head sh ∧ bytes = head ++ l ∧ decodeShape sh l = .ok i rest) ∨
    (∃ sub, i = .unassignedPage10 sub ∧ bytes = 0x10 :: sub :: rest) ∨
    ∃ sub, i = .unassignedPage11 sub ∧ bytes = 0x11 :: sub :: rest := by
  obtain ⟨op, l, hbyte, hop⟩ := andThen_ok_iff.mp h
  obtain rfl := takeByte_ok hbyte
  split_ifs at hop with h10 h11
  · rcases decodePage_ok hop with ⟨sub, sh, l', rfl, hl, hsh⟩ | ⟨sub, rfl, rfl⟩
    · exact .inl ⟨_, sh, l', .page10 hl, h10 ▸ rfl, hsh⟩
    · exact .inr (.inl ⟨sub, rfl, h10 ▸ rfl⟩)
  · rcases decodePage_ok hop with ⟨sub, sh, l', rfl, hl, hsh⟩ | ⟨sub, rfl, rfl⟩
    · exact .inl ⟨_, sh, l', .page11 hl, h11 ▸ rfl, hsh⟩
    · exact .inr (.inr ⟨sub, rfl, h11 ▸ rfl⟩)
  · split at hop
    · exact .inl ⟨_, _, l, .primary h10 h11 ‹_›, rfl, hop⟩
    · cases hop

/-- Settles O2: a row reads exactly the operand the encoder writes, and an unassigned sub-opcode is its own encoding. -/
theorem encodeOfDecode : Obligations.EncodeOfDecode := by
  intro bytes i rest h
  refine ⟨decode_wf h, ?_⟩
  rcases decode_ok h with ⟨head, sh, l, hrow, rfl, hsh⟩ | ⟨sub, rfl, rfl⟩ | ⟨sub, rfl, rfl⟩
  · exact (decodeShape_ok hrow.encodes hsh).2
  · rfl
  · rfl

/-! ## Illegal operands -/

/-- A mode without a form is refused with the postbyte, before any offset byte is read. -/
theorem decodeMode_of_modeWithoutForm {r : IdxReg} {i : Bool} {m : Nat} (h : modeWithoutForm r i m = true) (pb : Byte)
    (rest : List Byte) : decodeMode pb r i m rest = .bad (.illegalPostbyte pb) := by
  unfold modeWithoutForm at h
  split at h
  case h_1 | h_2 => subst h; rfl
  case h_3 | h_4 | h_5 => rfl
  case h_6 =>
    rw [Bool.not_eq_true'] at h
    exact if_neg (by rw [h]; decide)
  case h_7 => cases h

/-- Bit 7 of every postbyte of 30_encoding R97 is set. -/
theorem msb_of_isIllegalPostbyte : ∀ pb : Byte, Machine.isIllegalPostbyte pb = true → pb.msb = true := by
  decide

/-- A postbyte of 30_encoding R97 is refused by name, whatever follows. -/
theorem decodeIndexed_of_illegal {pb : Byte} (h : Machine.isIllegalPostbyte pb = true) (rest : List Byte) :
    decodeIndexed (pb :: rest) = .bad (.illegalPostbyte pb) := by
  have fields := postbyte_of_fields pb (msb_of_isIllegalPostbyte pb h)
  rw [← fields, isIllegalPostbyte_postbyte] at h
  rw [← fields, decodeIndexed_long]
  exact decodeMode_of_modeWithoutForm h _ rest

/-- The codes of the 16-bit registers (30_encoding R99). -/
theorem regCode_wide_iff : ∀ code : BitVec 4,
    (regCodeOfBits code).map Machine.isWide = some true ↔ code.toNat ≤ 5 := by
  decide

/-- The codes of the 8-bit registers (30_encoding R99). -/
theorem regCode_narrow_iff : ∀ code : BitVec 4,
    (regCodeOfBits code).map Machine.isWide = some false ↔ 8 ≤ code.toNat ∧ code.toNat ≤ 11 := by
  decide

/-- A register pair is refused exactly when its codes do not name registers of one width. -/
theorem decodeRegPair_bad_iff (f : RegCode → RegCode → Instr) (pb : Byte) (rest : List Byte) :
    decodeRegPair f (pb :: rest) = .bad .illegalRegisterPair ↔
      ¬ ∃ wide, (regCodeOfBits (pb.extractLsb' 4 4)).map Machine.isWide = some wide ∧
        (regCodeOfBits (pb.extractLsb' 0 4)).map Machine.isWide = some wide := by
  simp only [decodeRegPair, takeByte_cons, andThen_ok]
  cases regCodeOfBits (pb.extractLsb' 4 4) with
  | none => simp
  | some r1 =>
    cases regCodeOfBits (pb.extractLsb' 0 4) with
    | none => simp
    | some r2 =>
      by_cases hw : Machine.isWide r2 = Machine.isWide r1
      · simp [hw]
      · simp [hw, Ne.symm hw]

/-- The two codes of a register pair are the nibbles of its byte (30_encoding R90). -/
theorem nibbles_toNat (pb : Byte) :
    (pb.extractLsb' 4 4).toNat = pb.toNat / 16 ∧ (pb.extractLsb' 0 4).toNat = pb.toNat % 16 := by
  revert pb
  decide

/-- Settles O3: the list of R97 is the modes without a form, and the ranges of R99 are the codes of each width. -/
theorem illegalOperandsRefused : Obligations.IllegalOperandsRefused := by
  refine ⟨fun pb rest => ⟨fun h => ?listed, fun h => decodeIndexed_of_illegal h rest⟩, fun f pb rest => ?pair⟩
  case listed =>
    cases decodeIndexed_refusesBySpec.bad h with
    | illegalPostbyte hpb => exact hpb
  case pair =>
    obtain ⟨hhigh, hlow⟩ := nibbles_toNat pb
    rw [decodeRegPair_bad_iff, Bool.exists_bool, or_comm]
    simp only [regCode_wide_iff, regCode_narrow_iff, hhigh, hlow]

/-! ## Words, unassigned encodings and NOP -/

/-- Settles O4: each word evaluates. -/
theorem decodeWords : Obligations.DecodeWords :=
  ⟨rfl, rfl, rfl, rfl, rfl, rfl, rfl, rfl, rfl, rfl, rfl, rfl⟩

/-- Settles O19: each unassigned encoding has its own refusal as its meaning. -/
theorem unassignedRefused : Obligations.UnassignedRefused := fun _ _ =>
  ⟨rfl, rfl, rfl, rfl, rfl, rfl, rfl, rfl, rfl, rfl, rfl, rfl, rfl, rfl, rfl, rfl, rfl, rfl, rfl, rfl, rfl, rfl⟩

/-- `NOP` and the ten bytes treated as `NOP` have one byte (30_encoding R104). -/
theorem encode_nop_length : ∀ i ∈ Machine.nopInstrs, (encode i).length = 1 := by
  decide

/-- Settles O51: the eleven instructions are those of `exec_nop`. -/
theorem nopResult : Obligations.NopResult :=
  fun s i hi => ⟨Machine.exec_nop hi s, encode_nop_length i hi⟩

end Sys2Proof

/-! # Operations on bytes: results and flags (O25 to O35, O40, O41)

Every instruction of this family ends in `putFlags`. What that does is read off the list of effects once and for all:
`FlagEffects.puts` are the flags given a value, `FlagEffects.undefs` those left undefined, and every other flag is kept.
What an operation of 40_common_operations has to show for itself is then the number its result is. -/

namespace Sys2Proof.Machine

/-! ## What a list of flag effects does -/

/-- The five flags that effects are about. -/
def arithmeticFlags : List Flag := [.h, .n, .z, .v, .c]

/-- What the effects do to each flag of CC; E, F and I are kept. -/
def FlagEffects.on (f : FlagEffects) : Flag → FlagEffect
  | .h => f.h
  | .n => f.n
  | .z => f.z
  | .v => f.v
  | .c => f.c
  | .e | .f | .i => .keep

/-- The flag with the value an effect gives it, if it gives one. -/
def FlagEffect.valueFor (k : Flag) : FlagEffect → Option (Flag × Bool)
  | .put bit => some (k, bit)
  | .keep | .undef => none

/-- The flags the effects give a value. -/
def FlagEffects.puts (f : FlagEffects) : List (Flag × Bool) := arithmeticFlags.filterMap fun k => (f.on k).valueFor k

/-- The flags the effects leave undefined. -/
def FlagEffects.undefs (f : FlagEffects) : List Flag := arithmeticFlags.filter fun k => (f.on k).draws

/-- The pieces that writing the flags changes. -/
def FlagEffects.parts (f : FlagEffects) : List Part :=
  flagParts (f.puts.map Prod.fst ++ f.undefs) ++ (if f.undefs.isEmpty then [] else [.draws])

theorem FlagEffect.valueFor_eq_some {k : Flag} {e : FlagEffect} {p : Flag × Bool} :
    e.valueFor k = some p ↔ p.1 = k ∧ e = .put p.2 := by
  obtain ⟨k', bit⟩ := p
  cases e <;> simp [valueFor, eq_comm]

theorem FlagEffects.mem_puts {f : FlagEffects} {p : Flag × Bool} (h : p ∈ f.puts) : f.on p.1 = .put p.2 := by
  obtain ⟨k, -, hk⟩ := List.mem_filterMap.mp h
  obtain ⟨rfl, e⟩ := FlagEffect.valueFor_eq_some.mp hk
  exact e

/-- An arithmetic flag is kept, given a value, or left undefined. -/
theorem FlagEffects.kept_or_listed (f : FlagEffects) {k : Flag} (hk : k ∈ arithmeticFlags) :
    f.on k = .keep ∨ Part.flag k ∈ f.parts := by
  have listed (h : k ∈ f.puts.map Prod.fst ++ f.undefs) : Part.flag k ∈ f.parts :=
    List.mem_append_left _ (List.mem_map_of_mem h)
  cases e : f.on k with
  | keep => exact .inl rfl
  | put bit =>
    have hput : (k, bit) ∈ f.puts := List.mem_filterMap.mpr ⟨k, hk, FlagEffect.valueFor_eq_some.mpr ⟨rfl, e⟩⟩
    exact .inr (listed (List.mem_append_left _ (List.mem_map_of_mem hput)))
  | undef =>
    have hundef : k ∈ f.undefs := List.mem_filter.mpr ⟨hk, by rw [e]; rfl⟩
    exact .inr (listed (List.mem_append_right _ hundef))

theorem FlagEffects.draws_of_undefs_nil {f : FlagEffects} (h : f.undefs = []) : f.draws = 0 := by
  have hd : ∀ k ∈ arithmeticFlags, (f.on k).draws = false := by simpa [undefs] using h
  have hh : f.h.draws = false := hd .h (by decide)
  have hn : f.n.draws = false := hd .n (by decide)
  have hz : f.z.draws = false := hd .z (by decide)
  have hv : f.v.draws = false := hd .v (by decide)
  have hc : f.c.draws = false := hd .c (by decide)
  simp only [draws, hh, hn, hz, hv, hc, Bool.toNat_false]

theorem putFlags_read_of_put {f : FlagEffects} {k : Flag} {bit : Bool} (h : f.on k = .put bit) (s : State) :
    k.read (putFlags f s) = bit := by
  cases k with
  | h => exact putFlags_ccH_put h
  | n => exact putFlags_ccN_put h
  | z => exact putFlags_ccZ_put h
  | v => exact putFlags_ccV_put h
  | c => exact putFlags_ccC_put h
  | e | f | i => cases h

/-- The flags given a value have it afterwards. -/
theorem putFlags_puts (f : FlagEffects) (s : State) : FlagsAre (putFlags f s) f.puts :=
  fun _ hp => putFlags_read_of_put (FlagEffects.mem_puts hp) s

/-- A flag read off the place it has in a list. -/
theorem FlagsAre.get {t : State} {l : List (Flag × Bool)} (h : FlagsAre t l) (n : Nat) {k : Flag} {bit : Bool}
    (hn : l[n]? = some (k, bit)) : k.read t = bit :=
  h (k, bit) (List.mem_of_getElem? hn)

/-- Nothing else changes but the flags left undefined, which count a free value each. -/
theorem putFlags_parts (f : FlagEffects) (s : State) : SameBut f.parts s (putFlags f s) := by
  refine putFlags_frame s (f.kept_or_listed (k := .h) (by decide)) (f.kept_or_listed (k := .n) (by decide))
    (f.kept_or_listed (k := .z) (by decide)) (f.kept_or_listed (k := .v) (by decide))
    (f.kept_or_listed (k := .c) (by decide)) ?_
  cases hu : f.undefs with
  | nil => exact .inl (FlagEffects.draws_of_undefs_nil hu)
  | cons k l => exact .inr (by simp [FlagEffects.parts, hu])

/-! ## One operand (40_common_operations R145 to R155) -/

/-- A one-operand instruction leaves its function's result in its place and sets its function's flags. -/
theorem unary_done {op : UnaryOp} (hop : op ≠ .tst) (p : Place) (s : State) {r : Byte} {f : FlagEffects}
    (hr : unaryFunction op (p.operand s).1 (ccC s.cc) = (r, f)) :
    ∃ t, exec (unaryInstr op p) s = .next t ∧ p.Done r f.puts f.undefs s t := by
  refine ⟨_, exec_unary hop p s, ?_⟩
  rw [modifyPlace_eq, hr]
  exact done_of (putFlags_puts f _) (putFlags_parts f _)

theorem neg8_toNat (m : Byte) : (neg8 m).1.toNat = (256 - m.toNat) % 256 := by
  simp [neg8]

/-- Settles O25: the negation of a byte is its difference from 256. -/
theorem negateResult : Obligations.NegateResult := by
  intro p s
  obtain ⟨t, ht, hdone⟩ := unary_done (op := .neg) (by decide) p s rfl
  exact ⟨_, t, ht, neg8_toNat _, hdone⟩

theorem com8_toNat (m : Byte) : (com8 m).1.toNat = 255 - m.toNat := by
  have h : (com8 m).1 = ~~~m := BitVec.xor_allOnes
  rw [h, BitVec.toNat_not]

/-- Settles O26: an exclusive or with ones is the complement, and `CLR` looks at no operand. -/
theorem complementAndClearResult : Obligations.ComplementAndClearResult := by
  intro p s
  refine ⟨?com, unary_done (op := .clr) (by decide) p s rfl⟩
  obtain ⟨t, ht, hdone⟩ := unary_done (op := .com) (by decide) p s rfl
  exact ⟨_, t, ht, com8_toNat _, hdone⟩

theorem lsr8_toNat (m : Byte) : (lsr8 m).1.toNat = m.toNat / 2 := by
  simp [lsr8, Nat.shiftRight_eq_div_pow]

/-- Bits 7 to 1 of a byte moved down, with a bit brought in above them. -/
theorem shiftIn_toNat (m : Byte) (bit : Bool) :
    (BitVec.ofBool bit ++ m.extractLsb' 1 7 : Byte).toNat = m.toNat / 2 + 128 * bit.toNat := by
  have := m.isLt
  rw [BitVec.toNat_append, ← Nat.shiftLeft_add_eq_or_of_lt (BitVec.isLt _), Nat.shiftLeft_eq,
    BitVec.toNat_ofBool, BitVec.extractLsb'_toNat, Nat.shiftRight_eq_div_pow]
  omega

/-- The arithmetic shift halves the signed number, rounding down. -/
theorem asr8_toInt (m : Byte) : (asr8 m).1.toInt = m.toInt / 2 := by
  have h := shiftIn_toNat m m.msb
  have := m.isLt
  rw [BitVec.msb_eq_decide] at h
  simp only [asr8, BitVec.toInt_eq_toNat_cond, BitVec.msb_eq_decide, h]
  by_cases hm : 128 ≤ m.toNat <;> simp [hm] <;> omega

/-- Settles O27: the shifts halve the unsigned and the signed number. -/
theorem shiftRightResult : Obligations.ShiftRightResult := by
  intro p s
  obtain ⟨t, ht, hlsr⟩ := unary_done (op := .lsr) (by decide) p s rfl
  obtain ⟨u, hu, hasr⟩ := unary_done (op := .asr) (by decide) p s rfl
  exact ⟨⟨_, t, ht, lsr8_toNat _, hlsr⟩, _, u, hu, asr8_toInt _, hasr⟩

theorem asl8_toNat (m : Byte) : (asl8 m).1.toNat = m.toNat * 2 % 256 := by
  simp [asl8, Nat.shiftLeft_eq]

theorem asl8_msb (m : Byte) : (asl8 m).1.msb = m.getLsbD 6 := by
  simp [asl8, BitVec.msb_eq_getLsbD_last]

/-- Settles O28: N is bit 6 of the operand, so V is N exclusive or C. -/
theorem shiftLeftResult : Obligations.ShiftLeftResult := by
  intro p s
  obtain ⟨t, ht, hdone⟩ := unary_done (op := .asl) (by decide) p s rfl
  have hflags := hdone.1
  have hn : Flag.n.read t = (asl8 (p.operand s).1).1.msb := hflags.get 0 rfl
  have hv : Flag.v.read t = ((p.operand s).1.getLsbD 7 != (p.operand s).1.getLsbD 6) := hflags.get 2 rfl
  have hc : Flag.c.read t = (p.operand s).1.getLsbD 7 := hflags.get 3 rfl
  exact ⟨_, t, ht, asl8_toNat _, hdone, by rw [hv, hn, hc, asl8_msb, bne_comm]⟩

theorem ror8_toNat (m : Byte) (cin : Bool) : (ror8 m cin).1.toNat = m.toNat / 2 + 128 * cin.toNat :=
  shiftIn_toNat m cin

theorem rol8_toNat (m : Byte) (cin : Bool) : (rol8 m cin).1.toNat = m.toNat * 2 % 256 + cin.toNat := by
  have hc : (BitVec.ofBool cin).toNat < 2 ^ 1 := BitVec.isLt _
  rw [rol8, BitVec.toNat_append, ← Nat.shiftLeft_add_eq_or_of_lt hc, Nat.shiftLeft_eq, BitVec.toNat_ofBool,
    BitVec.extractLsb'_toNat, Nat.shiftRight_eq_div_pow]
  omega

/-- Settles O29: C comes in at one end of the byte and the bit at the other end goes out to it. -/
theorem rotateResult : Obligations.RotateResult := by
  intro p s
  obtain ⟨t, ht, hror⟩ := unary_done (op := .ror) (by decide) p s rfl
  obtain ⟨u, hu, hrol⟩ := unary_done (op := .rol) (by decide) p s rfl
  exact ⟨⟨_, t, ht, ror8_toNat _ _, hror⟩, _, u, hu, rol8_toNat _ _, hrol⟩

theorem inc8_toNat (m : Byte) : (inc8 m).1.toNat = (m.toNat + 1) % 256 :=
  BitVec.toNat_add m 1#8

theorem dec8_toNat (m : Byte) : (dec8 m).1.toNat = (m.toNat + 255) % 256 := by
  rw [Nat.add_comm]
  exact BitVec.toNat_sub m 1#8

/-- Settles O30: a step by one modulo 256, whose flags leave C out. -/
theorem incrementDecrementResult : Obligations.IncrementDecrementResult := by
  intro p s
  obtain ⟨t, ht, hinc⟩ := unary_done (op := .inc) (by decide) p s rfl
  obtain ⟨u, hu, hdec⟩ := unary_done (op := .dec) (by decide) p s rfl
  exact ⟨⟨_, t, ht, inc8_toNat _, hinc⟩, _, u, hu, dec8_toNat _, hdec⟩

/-- Settles O31: the flags of the operand are all that `TST` adds to reading it. -/
theorem testResult : Obligations.TestResult := by
  intro p s
  obtain ⟨hwritten, htouched⟩ := writes_of (p.operand_frame s) (putFlags_parts (tstFlags8 (p.operand s).1) _)
  exact ⟨_, exec_test p s, putFlags_puts _ _, hwritten, htouched⟩

/-! ## An accumulator and an operand (R141 to R144) -/

/-- What a two-operand function answers for the accumulator, the operand read and C. -/
def binaryAnswer (op : BinaryOp) (r : Acc) (src : Source8) (s : State) : Byte × FlagEffects :=
  binaryFunction op (readAcc r s) (src.read s).1 (ccC s.cc)

/-- A result put into an accumulator, with its flags, after an operand was read. -/
theorem writeAcc_putFlags_writes (r : Acc) (v : Byte) (f : FlagEffects) {touched : List Part} {s m : State}
    (h : SameBut touched s m) : Writes (r.part :: f.parts) touched s m (putFlags f (writeAcc r v m)) :=
  writes_of h ((writeAcc_frame r v m).trans (putFlags_parts f _))

/-- The operations that write the accumulator: the result goes into it, the flags are the function's. -/
theorem exec_binary_answer {op : BinaryOp} (hop : op ≠ .cmp ∧ op ≠ .bit) (r : Acc) (src : Source8) (s : State) :
    exec (binaryInstr op r src) s =
      .next (putFlags (binaryAnswer op r src s).2 (writeAcc r (binaryAnswer op r src s).1 (src.read s).2)) := by
  rw [exec_binary hop, operateAcc, src.read_acc, src.read_cc]
  rfl

/-- `CMP` and `BIT`: the flags alone. -/
theorem exec_compare_answer {op : BinaryOp} (hop : op = .cmp ∨ op = .bit) (r : Acc) (src : Source8) (s : State) :
    exec (binaryInstr op r src) s = .next (putFlags (binaryAnswer op r src s).2 (src.read s).2) := by
  rw [exec_compare hop, compareAcc, src.read_acc, src.read_cc]
  rfl

/-- What such an operation leaves: its result, its flags, and the rest as the operand's reading left it. -/
theorem binary_result {op : BinaryOp} (hop : op ≠ .cmp ∧ op ≠ .bit) (r : Acc) (src : Source8) (s : State) :
    ∃ t, exec (binaryInstr op r src) s = .next t ∧ readAcc r t = (binaryAnswer op r src s).1 ∧
      FlagsAre t (binaryAnswer op r src s).2.puts ∧
      Writes (r.part :: (binaryAnswer op r src s).2.parts) src.touches s (src.read s).2 t :=
  ⟨_, exec_binary_answer hop r src s, (readAcc_putFlags r _ _).trans (readAcc_writeAcc r _ _), putFlags_puts _ _,
    writeAcc_putFlags_writes r _ _ (src.read_frame s)⟩

theorem add8_toNat (a m : Byte) (cin : Bool) : (add8 a m cin).1.toNat = (a.toNat + m.toNat + cin.toNat) % 256 :=
  BitVec.toNat_ofNat _ 8

/-- An accumulator that takes what `add8` answers holds the sum of R141, with its flags. -/
theorem sum8_of_add8 {r : Acc} {m : Byte} {cin : Bool} {touched : List Part} {s x t : State}
    (hr : readAcc r t = (add8 (readAcc r s) m cin).1) (hf : FlagsAre t (add8 (readAcc r s) m cin).2.puts)
    (hw : Writes (r.part :: (add8 (readAcc r s) m cin).2.parts) touched s x t) : Sum8 r m cin touched s x t := by
  refine ⟨hr ▸ add8_toNat _ _ _, ?_, hw⟩
  rw [hr]
  exact hf

/-- Settles O32: all five are `add8` of the accumulator and an operand. -/
theorem addResult : Obligations.AddResult := by
  intro r src s
  refine ⟨?add, ?adc, ?aba⟩
  case add =>
    obtain ⟨t, ht, hr, hf, hw⟩ := binary_result (op := .add) (by decide) r src s
    exact ⟨t, ht, sum8_of_add8 hr hf hw⟩
  case adc =>
    obtain ⟨t, ht, hr, hf, hw⟩ := binary_result (op := .adc) (by decide) r src s
    exact ⟨t, ht, sum8_of_add8 hr hf hw⟩
  case aba =>
    exact ⟨_, rfl, sum8_of_add8 ((readAcc_putFlags .a _ _).trans (readAcc_writeAcc .a _ _)) (putFlags_puts _ _)
      (writeAcc_putFlags_writes .a _ _ (SameBut.refl _ _))⟩

theorem sub8_isDifference (a m : Byte) (bin : Bool) : IsDifference a m bin (sub8 a m bin).1 := by
  rw [IsDifference, sub8, BitVec.toNat_ofInt]
  omega

/-- An accumulator that takes what `sub8` answers holds the difference of R142, with its flags. -/
theorem difference_of_sub8 (r : Acc) (a m : Byte) (bin : Bool) {touched : List Part} {s x t : State}
    (h : SameBut touched s x) (ht : t = putFlags (sub8 a m bin).2 (writeAcc r (sub8 a m bin).1 x)) :
    IsDifference a m bin (readAcc r t) ∧ FlagsAre t (differenceFlags a m bin (readAcc r t)) ∧
      Writes (r.part :: differenceParts) touched s x t := by
  subst ht
  rw [readAcc_putFlags, readAcc_writeAcc]
  exact ⟨sub8_isDifference a m bin, sub_flags a m bin _,
    writes_of h ((writeAcc_frame r _ x).trans (sub_frame a m bin _))⟩

/-- Settles O33: all six are `sub8` of the accumulator and an operand. -/
theorem subtractResult : Obligations.SubtractResult := by
  intro r src s a m
  have hread := src.read_frame s
  refine ⟨?sub, ?sbc, ?cmp⟩
  case sub => exact ⟨_, exec_binary_answer (by decide) r src s, difference_of_sub8 r a m false hread rfl⟩
  case sbc => exact ⟨_, exec_binary_answer (by decide) r src s, difference_of_sub8 r a m (ccC s.cc) hread rfl⟩
  case cmp =>
    exact ⟨_, _, exec_compare_answer (.inl rfl) r src s, sub8_isDifference a m false, sub_flags a m false _,
      writes_of hread (sub_frame a m false _)⟩

/-- Settles O34: each function is the operation on words, which acts bit by bit. -/
theorem logicResult : Obligations.LogicResult := by
  intro r src s a m
  refine ⟨?and, ?or, ?eor, ?bit⟩
  case and =>
    obtain ⟨t, ht, hr, hf, hw⟩ := binary_result (op := .and) (by decide) r src s
    exact ⟨t, ht, fun n _ => hr ▸ BitVec.getLsbD_and, hr ▸ hf, hw⟩
  case or =>
    obtain ⟨t, ht, hr, hf, hw⟩ := binary_result (op := .or) (by decide) r src s
    exact ⟨t, ht, fun n _ => hr ▸ BitVec.getLsbD_or, hr ▸ hf, hw⟩
  case eor =>
    obtain ⟨t, ht, hr, hf, hw⟩ := binary_result (op := .eor) (by decide) r src s
    exact ⟨t, ht, fun n _ => hr ▸ BitVec.getLsbD_xor, hr ▸ hf, hw⟩
  case bit =>
    exact ⟨_, exec_compare_answer (.inr rfl) r src s, logic_flags _ _, writes_of (src.read_frame s) (logic_frame _ _)⟩

/-! ## Loads and stores of a byte (R144) -/

theorem MemMode.address_acc (e : MemMode) (r : Acc) (s : State) : readAcc r (e.address s).2 = readAcc r s := by
  obtain ⟨ha, hb, -⟩ := e.not_touched
  cases r with
  | a => exact e.address_frame s .a ha
  | b => exact e.address_frame s .b hb

theorem MemMode.address_mem (m : MemMode) (s : State) : (m.address s).2.mem = s.mem := by
  obtain ⟨-, -, -, -, -, -, -, hmem, -⟩ := m.not_touched
  exact m.address_frame s .mem hmem

/-- What is written after an address was formed, where the write itself may change memory, the VIA and the count of free
values. -/
theorem writes_of_store {written : List Part} {m : MemMode} {s w t : State}
    (hstore : SameBut [.mem, .via, .draws] (m.address s).2 w) (hflags : SameBut written w t) :
    Writes written (.mem :: m.touches) s w t := by
  refine writes_of (((m.address_frame s).trans hstore).mono ?_) hflags
  intro p hp
  simp only [MemMode.touches, List.mem_append, List.mem_cons, List.not_mem_nil, or_false] at hp ⊢
  tauto

theorem bytesSameBut_of_mem {l : List Word} {s x y t : State} (h : BytesSameBut l x y) (hx : x.mem = s.mem)
    (hy : t.mem = y.mem) : BytesSameBut l s t := by
  intro a ha
  rw [hy, ← hx]
  exact h a ha

/-- The flags of a byte moved and the store of it, the flags last. -/
theorem storeAcc_eq (r : Acc) (e : Word × State) :
    storeAcc r e = putFlags (logicFlags8 (readAcc r e.2)) (memWrite8 e.1 (readAcc r e.2) e.2) :=
  memWrite8_putFlags _ _ _ rfl

/-- Settles O35: the flags of a store may be set after it, since they draw no free value. -/
theorem loadStore8Result : Obligations.LoadStore8Result := by
  refine ⟨fun r src s => ?load, fun r m s => ?store⟩
  case load =>
    exact ⟨_, exec_load8 r src s, (readAcc_putFlags r _ _).trans (readAcc_writeAcc r _ _), putFlags_puts _ _,
      writeAcc_putFlags_writes r _ (logicFlags8 _) (src.read_frame s)⟩
  case store =>
    refine ⟨_, exec_store8 r m s, ?_⟩
    rw [storeAcc_eq, m.address_acc]
    exact ⟨putFlags_puts _ _, writes_of_store (memWrite8_frame _ _ _) (putFlags_parts (logicFlags8 _) _),
      bytesSameBut_of_mem (memWrite8_bytes _ _ _) (m.address_mem s) (putFlags_mem _ _)⟩

/-! ## Decimal arithmetic (R164) -/

/-- What `DAA` adds to the accumulator. -/
def decimalCorrection (a : Byte) (h c : Bool) : Nat :=
  (if 9 < a.toNat % 16 ∨ h = true then 0x06 else 0) +
    (if 9 < a.toNat / 16 ∨ c = true ∨ (8 < a.toNat / 16 ∧ 9 < a.toNat % 16) then 0x60 else 0)

theorem daa_eq (a : Byte) (h c : Bool) :
    daa a h c = (BitVec.ofNat 8 (a.toNat + decimalCorrection a h c),
      nz8 (BitVec.ofNat 8 (a.toNat + decimalCorrection a h c)) .keep .undef
        (.put (c || decide (255 < a.toNat + decimalCorrection a h c)))) := by
  have hlow : (decide (a.toNat % 16 > 9) || h) = true ↔ 9 < a.toNat % 16 ∨ h = true := by simp
  have hhigh : (decide (a.toNat / 16 > 9) || c || (decide (a.toNat / 16 > 8) && decide (a.toNat % 16 > 9))) = true ↔
      9 < a.toNat / 16 ∨ c = true ∨ (8 < a.toNat / 16 ∧ 9 < a.toNat % 16) := by simp [or_assoc]
  simp only [daa, decimalCorrection, ← hlow, ← hhigh]

theorem decimalAdjust_a (s : State) :
    (decimalAdjust s).a = BitVec.ofNat 8 (s.a.toNat + decimalCorrection s.a (ccH s.cc) (ccC s.cc)) := by
  rw [decimalAdjust, daa_eq]
  exact putFlags_a _ _

theorem decimalAdjust_flags (s : State) : FlagsAre (decimalAdjust s) [(.n, (decimalAdjust s).a.msb),
    (.z, (decimalAdjust s).a == 0),
    (.c, ccC s.cc || decide (255 < s.a.toNat + decimalCorrection s.a (ccH s.cc) (ccC s.cc)))] := by
  rw [decimalAdjust_a, decimalAdjust, daa_eq]
  exact putFlags_puts _ _

theorem decimalAdjust_frame (s : State) :
    SameBut (.a :: .draws :: flagParts [.n, .z, .v, .c]) s (decimalAdjust s) :=
  ((writeAcc_frame .a _ s).trans (putFlags_frame (l := .draws :: flagParts [.n, .z, .v, .c]) _ (.inl rfl)
    (.inr (by decide)) (.inr (by decide)) (.inr (by decide)) (.inr (by decide)) (.inr (by decide)))).mono (by decide)

/-- Settles O40: the correction of the statement is `decimalCorrection`. -/
theorem decimalAdjustResult : Obligations.DecimalAdjustResult := by
  intro s low high cf
  refine ⟨decimalAdjust s, rfl, ?_, decimalAdjust_flags s, decimalAdjust_frame s⟩
  rw [decimalAdjust_a, BitVec.toNat_ofNat]
  rfl

/-! ## Packed decimal addition -/

/-- The binary sum of two packed decimal bytes and a carry, whose digits add up to `high` tens and `low` ones. -/
def digitSum (high low : Nat) : Nat := 16 * high + low

/-- What corrects that sum: 6 if there are more than nine ones, 0x60 if there is a hundred. -/
def digitCorrection (high low : Nat) : Nat :=
  (if 9 < low then 0x06 else 0) + (if 100 ≤ 10 * high + low then 0x60 else 0)

theorem corrected_sum {high low : Nat} (hhigh : high ≤ 18) (hlow : low ≤ 19) :
    (digitSum high low % 256 + digitCorrection high low) % 256 =
      16 * ((10 * high + low) / 10 % 10) + (10 * high + low) % 10 := by
  unfold digitCorrection digitSum
  split_ifs <;> omega

theorem corrected_carry {high low : Nat} (hhigh : high ≤ 18) (hlow : low ≤ 19) :
    255 < digitSum high low ∨ 255 < digitSum high low % 256 + digitCorrection high low ↔ 100 ≤ 10 * high + low := by
  unfold digitCorrection digitSum
  split_ifs <;> omega

/-- `DAA` after such a sum adds the correction of the digits: H tells of a carry out of the ones that their digit hides, C of
one out of the tens. -/
theorem decimalCorrection_of_digits {a : Byte} {h c : Bool} {high low : Nat} (hhigh : high ≤ 18) (hlow : low ≤ 19)
    (ha : a.toNat = digitSum high low % 256) (hh : h = decide (15 < low)) (hc : c = decide (255 < digitSum high low)) :
    decimalCorrection a h c = digitCorrection high low := by
  subst hh hc
  unfold digitSum at *
  have hones : 9 < a.toNat % 16 ∨ 15 < low ↔ 9 < low := by omega
  have htens : 9 < a.toNat / 16 ∨ 255 < 16 * high + low ∨ (8 < a.toNat / 16 ∧ 9 < a.toNat % 16) ↔
      100 ≤ 10 * high + low := by
    by_cases hbyte : 255 < 16 * high + low <;> omega
  simp only [decimalCorrection, digitCorrection, decide_eq_true_eq, hones, htens]

/-- A byte with two decimal digits. -/
theorem bcd_of_digits {a : Byte} {n : Nat} (ha : a.toNat = 16 * (n / 10 % 10) + n % 10) :
    isBcd a = true ∧ bcdValue a = n % 100 := by
  simp only [isBcd, bcdValue, Bool.and_eq_true, decide_eq_true_eq]
  omega

/-- `DAA` of a sum of digits gives the decimal sum, and C its hundred. -/
theorem decimalAdjust_of_digits {t : State} {high low : Nat} (hhigh : high ≤ 18) (hlow : low ≤ 19)
    (ha : t.a.toNat = digitSum high low % 256) (hh : ccH t.cc = decide (15 < low))
    (hc : ccC t.cc = decide (255 < digitSum high low)) :
    isBcd (decimalAdjust t).a = true ∧ bcdValue (decimalAdjust t).a = (10 * high + low) % 100 ∧
      ccC (decimalAdjust t).cc = decide (100 ≤ 10 * high + low) := by
  have hcorrection := decimalCorrection_of_digits hhigh hlow ha hh hc
  have hsum : (decimalAdjust t).a.toNat = 16 * ((10 * high + low) / 10 % 10) + (10 * high + low) % 10 := by
    rw [decimalAdjust_a, BitVec.toNat_ofNat, hcorrection, ha]
    exact corrected_sum hhigh hlow
  have hcarry : ccC (decimalAdjust t).cc =
      (ccC t.cc || decide (255 < t.a.toNat + decimalCorrection t.a (ccH t.cc) (ccC t.cc))) :=
    (decimalAdjust_flags t).get 2 rfl
  refine ⟨(bcd_of_digits hsum).1, (bcd_of_digits hsum).2, ?_⟩
  rw [hcarry, hcorrection, ha, hc, ← Bool.decide_or, decide_eq_decide]
  exact corrected_carry hhigh hlow

/-- Settles O41: `ADCA` leaves the sum of the digits with its two carries in H and C. -/
theorem decimalAddition : Obligations.DecimalAddition := by
  intro s ii hs hi sum
  obtain ⟨t, ht, hr, hf, -⟩ := binary_result (op := .adc) (by decide) .a (.imm ii) s
  obtain ⟨_, _, _, _⟩ : s.a.toNat / 16 ≤ 9 ∧ s.a.toNat % 16 ≤ 9 ∧ ii.toNat / 16 ≤ 9 ∧ ii.toNat % 16 ≤ 9 := by
    simpa [isBcd, and_assoc] using And.intro hs hi
  have hcin := Bool.toNat_le (ccC s.cc)
  obtain ⟨high, hhigh⟩ : ∃ high, high = s.a.toNat / 16 + ii.toNat / 16 := ⟨_, rfl⟩
  obtain ⟨low, hlow⟩ : ∃ low, low = s.a.toNat % 16 + ii.toNat % 16 + (ccC s.cc).toNat := ⟨_, rfl⟩
  have hbinary : s.a.toNat + ii.toNat + (ccC s.cc).toNat = digitSum high low := by
    unfold digitSum
    omega
  have hdecimal : sum = 10 * high + low := by
    simp only [sum, bcdValue]
    omega
  have ha : t.a.toNat = digitSum high low % 256 := by
    rw [← hbinary]
    exact (congrArg BitVec.toNat hr).trans (add8_toNat _ _ _)
  have hh : ccH t.cc = decide (15 < low) := hlow ▸ hf.get 0 rfl
  have hc : ccC t.cc = decide (255 < digitSum high low) := hbinary ▸ hf.get 4 rfl
  exact ⟨t, decimalAdjust t, ht, rfl, hdecimal ▸ decimalAdjust_of_digits (by omega) (by omega) ha hh hc⟩

end Sys2Proof.Machine

/-! # Words: arithmetic, loads and stores, addresses, branches (O24, O36 to O39, O44, O45) -/

namespace Sys2Proof.Machine

/-! ## D and the 16-bit registers (40_common_operations R156 to R158) -/

/-- A word put into a register, with the flags, after an operand was read. -/
theorem loadReg16_putFlags_writes (r : Reg16) (v : Word) (f : FlagEffects) {touched : List Part} {s m : State}
    (h : SameBut touched s m) : Writes (r.parts ++ f.parts) touched s m (putFlags f (loadReg16 r v m)) :=
  writes_of h ((loadReg16_frame r v m).trans (putFlags_parts f _))

theorem loadReg16_putFlags_read (r : Reg16) (v : Word) (f : FlagEffects) (s : State) :
    readReg16 r (putFlags f (loadReg16 r v s)) = v :=
  (readReg16_putFlags r f _).trans (readReg16_load r v s)

/-- `ADDD` and `SUBD`: D, which no addressing mode steps, takes the answer of the function. -/
theorem operateD_read (f : Word → Word → Word × FlagEffects) (src : Source16) (s : State) :
    operateD f (src.read s) =
      putFlags (f s.d (src.read s).1).2 (loadReg16 .d (f s.d (src.read s).1).1 (src.read s).2) := by
  rw [operateD, src.read_d]
  rfl

theorem add16_toNat (a m : Word) : (add16 a m).1.toNat = (a.toNat + m.toNat) % 65536 :=
  BitVec.toNat_ofNat _ 16

/-- Settles O36: D takes the answer of `add16`. -/
theorem addWordResult : Obligations.AddWordResult := by
  intro src s a m
  have hd : (putFlags (add16 a m).2 (loadReg16 .d (add16 a m).1 (src.read s).2)).d = (add16 a m).1 :=
    loadReg16_putFlags_read .d _ _ _
  refine ⟨_, (exec_addd src s).trans (congrArg _ (operateD_read add16 src s)), ?_⟩
  rw [hd]
  exact ⟨add16_toNat a m, putFlags_puts _ _, loadReg16_putFlags_writes .d _ (add16 a m).2 (src.read_frame s)⟩

theorem sub16_toNat (a m : Word) : ((sub16 a m).1.toNat : Int) = ((a.toNat : Int) - m.toNat) % 65536 := by
  rw [sub16, BitVec.toNat_ofInt]
  omega

/-- Settles O37: `SUBD` puts the answer of `sub16` into D, the compares set its flags alone. -/
theorem subtractWordResult : Obligations.SubtractWordResult := by
  intro r src s m
  have hread := src.read_frame s
  refine ⟨?subd, ?cmp⟩
  case subd =>
    have hd : (putFlags (sub16 s.d m).2 (loadReg16 .d (sub16 s.d m).1 (src.read s).2)).d = (sub16 s.d m).1 :=
      loadReg16_putFlags_read .d _ _ _
    refine ⟨_, (exec_subd src s).trans (congrArg _ (operateD_read sub16 src s)), ?_⟩
    rw [hd]
    exact ⟨sub16_toNat s.d m, sub16_flags s.d m _,
      writes_of hread ((loadReg16_frame .d _ _).trans (sub16_frame s.d m _))⟩
  case cmp =>
    exact ⟨_, _, exec_cmp16 r src s, sub16_toNat _ m, sub16_flags _ m _, writes_of hread (sub16_frame _ m _)⟩

/-- A load of S arms NMI, a load of another register does not (60_exceptions R206). -/
theorem loadReg16_nmiArmed (r : Reg16) (v : Word) (s : State) :
    (loadReg16 r v s).nmiArmed = (s.nmiArmed || r == .s) := by
  cases r with
  | s => exact (Bool.or_true _).symm
  | d | x | y | u => exact (Bool.or_false _).symm

theorem Source16.read_nmiArmed (src : Source16) (s : State) : (src.read s).2.nmiArmed = s.nmiArmed := by
  obtain ⟨-, -, -, -, harmed, -⟩ := src.not_touched
  exact src.read_frame s .nmiArmed harmed

/-- The store of a word and then the flags of it. -/
theorem store16_eq (r : Reg16) (e : Word × State) :
    store16 r e = putFlags (ldstFlags16 (readReg16 r e.2)) (memWrite16 e.1 (readReg16 r e.2) e.2) :=
  memWrite16_putFlags _ _ _ rfl

/-- Settles O38: a load of S arms NMI, and a store reads its register from the state the address left. -/
theorem loadStore16Result : Obligations.LoadStore16Result := by
  refine ⟨fun r src s => ?load, fun r m s => ?store⟩
  case load =>
    refine ⟨_, exec_load16 r src s, loadReg16_putFlags_read r _ _ _, putFlags_puts _ _, ?_,
      loadReg16_putFlags_writes r _ (ldstFlags16 _) (src.read_frame s)⟩
    rw [load16, putFlags_nmiArmed, loadReg16_nmiArmed, src.read_nmiArmed]
  case store =>
    refine ⟨_, exec_store16 r m s, ?_⟩
    rw [store16_eq]
    exact ⟨putFlags_puts _ _, writes_of_store (memWrite16_frame _ _ _) (putFlags_parts (ldstFlags16 _) _),
      bytesSameBut_of_mem (memWrite16_bytes _ _ _) (m.address_mem s) (putFlags_mem _ _)⟩

/-! ## `MUL` (R165) -/

theorem putFlags_read_of_keep {f : FlagEffects} {k : Flag} (h : f.on k = .keep) (s : State) :
    k.read (putFlags f s) = k.read s := by
  cases k with
  | h => exact putFlags_ccH_keep h
  | n => exact putFlags_ccN_keep h
  | z => exact putFlags_ccZ_keep h
  | v => exact putFlags_ccV_keep h
  | c => exact putFlags_ccC_keep h
  | e => exact putFlags_ccE f s
  | f => exact putFlags_ccF f s
  | i => exact putFlags_ccI f s

/-- The product of two bytes fits in a word. -/
theorem mul_toNat (flags : MulFlags) (a b : Byte) : (mul flags a b).1.toNat = a.toNat * b.toNat := by
  have hlt : a.toNat * b.toNat < 2 ^ 8 * 2 ^ 8 := Nat.mul_lt_mul'' a.isLt b.isLt
  exact (BitVec.toNat_ofNat _ 16).trans (Nat.mod_eq_of_lt hlt)

theorem multiply_d (s : State) : (multiply s).d = (mul s.params.mulFlags s.a s.b).1 :=
  loadReg16_putFlags_read .d _ _ s

theorem mul_keeps_h (flags : MulFlags) (a b : Byte) : (mul flags a b).2.h = .keep := by
  cases flags <;> rfl

theorem mul_draws (flags : MulFlags) (a b : Byte) : (mul flags a b).2.draws = 0 := by
  cases flags <;> rfl

theorem multiply_frame (s : State) : SameBut ([.a, .b] ++ flagParts [.n, .z, .v, .c]) s (multiply s) :=
  (loadReg16_frame .d _ s).trans (putFlags_frame _ (.inl (mul_keeps_h _ _ _)) (.inr (by decide)) (.inr (by decide))
    (.inr (by decide)) (.inr (by decide)) (.inl (mul_draws _ _ _)))

/-- Settles O39: the product fits in D, and each setting of MUL_FLAGS is one list of effects. -/
theorem multiplyResult : Obligations.MultiplyResult := by
  intro s
  refine ⟨multiply s, rfl, ?_⟩
  rw [multiply_d]
  refine ⟨mul_toNat _ _ _, fun hflags => ?source, fun hflags => ?mc6809, multiply_frame s⟩
  case source =>
    rw [multiply, hflags]
    exact putFlags_puts _ _
  case mc6809 =>
    rw [multiply, hflags]
    intro p hp
    simp only [List.mem_cons, List.not_mem_nil, or_false] at hp
    rcases hp with rfl | rfl | rfl | rfl
    · exact putFlags_read_of_keep (k := .n) rfl _
    · exact putFlags_read_of_put (k := .z) rfl _
    · exact putFlags_read_of_keep (k := .v) rfl _
    · exact putFlags_read_of_put (k := .c) rfl _

/-! ## Sums of addresses and signed offsets (R135 to R137) -/

/-- A word plus a signed word, modulo 65536. -/
theorem toNat_add_signed (a d : Word) : ((a + d).toNat : Int) = ((a.toNat : Int) + d.toInt) % 65536 := by
  rw [BitVec.toNat_add, BitVec.toInt_eq_toNat_cond]
  split <;> omega

/-- A word plus a shorter signed number, modulo 65536. -/
theorem toNat_add_signExtend {n : Nat} (hn : n ≤ 16) (a : Word) (d : BitVec n) :
    ((a + d.signExtend 16).toNat : Int) = ((a.toNat : Int) + d.toInt) % 65536 := by
  rw [toNat_add_signed, BitVec.toInt_signExtend_of_le hn]

theorem toNat_add_unsigned (a d : Word) : ((a + d).toNat : Int) = ((a.toNat : Int) + d.toNat) % 65536 := by
  rw [BitVec.toNat_add]
  omega

theorem toNat_sub_unsigned (a d : Word) : ((a - d).toNat : Int) = ((a.toNat : Int) - d.toNat) % 65536 := by
  rw [BitVec.toNat_sub]
  omega

/-! ## Effective addresses (R133 to R135, 30_encoding R93 to R96) -/

theorem readIndex_stepIndex (r : IdxReg) (v : Word) (s : State) : readIndex r (stepIndex r v s) = v := by
  cases r <;> rfl

/-- An auto mode leaves its register at the value it steps to, and changes nothing else. -/
theorem stepIndex_moves (r : IdxReg) (s : State) {v : Word} {n : Int} (hv : (v.toNat : Int) = n) :
    ((readIndex r (stepIndex r v s)).toNat : Int) = n ∧ SameBut [idxPart r] s (stepIndex r v s) :=
  ⟨by rw [readIndex_stepIndex, hv], stepIndex_frame r v s⟩

theorem eaIndexed_of_indirect {ix : Indexed} (h : isIndirect ix = true) (s : State) :
    eaIndexed ix s = memRead16 (indexedBase ix s).1 (indexedBase ix s).2 :=
  if_pos h

theorem eaIndexed_of_direct {ix : Indexed} (h : isIndirect ix = false) (s : State) :
    eaIndexed ix s = indexedBase ix s :=
  if_neg (by rw [h]; decide)

/-- The forms whose postbyte holds the indirect bit (30_encoding R96). -/
def formsWithBit (r : IdxReg) (i : Bool) (n8 : Byte) (n16 : Word) : List Indexed :=
  [.inc2 r i, .dec2 r i, .plain r i, .accB r i, .accA r i, .off8 r n8 i, .off16 r n16 i, .accD r i, .pcr8 r n8 i,
    .pcr16 r n16 i]

theorem isIndirect_of_mem_formsWithBit {r : IdxReg} {i : Bool} {n8 : Byte} {n16 : Word} {ix : Indexed}
    (h : ix ∈ formsWithBit r i n8 n16) : isIndirect ix = i := by
  simp only [formsWithBit, List.mem_cons, List.not_mem_nil, or_false] at h
  rcases h with rfl | rfl | rfl | rfl | rfl | rfl | rfl | rfl | rfl | rfl <;> rfl

/-- Settles O24, mode by mode: each address is a sum of words, read as a sum modulo 65536. -/
theorem effectiveAddresses : Obligations.EffectiveAddresses := by
  intro s r i n5 n8 n16 base address moves moved
  have hd : (s.d.toNat : Int) = s.a.toNat * 256 + s.b.toNat := by exact_mod_cast joinBytes_toNat s.a s.b
  refine ⟨⟨joinBytes_toNat s.dp n8, rfl⟩, rfl, ?off5, ?inc1, ?inc2, ?dec1, ?dec2, ⟨rfl, rfl⟩, ?accB, ?accA, ?off8, ?off16,
    ?accD, ?pcr8, ?pcr16, ⟨rfl, rfl⟩, ?_⟩
  case off5 => exact ⟨toNat_add_signExtend (by decide) _ n5, rfl⟩
  case inc1 => exact ⟨rfl, stepIndex_moves r s (toNat_add_unsigned _ 1)⟩
  case inc2 => exact ⟨rfl, stepIndex_moves r s (toNat_add_unsigned _ 2)⟩
  case dec1 => exact ⟨toNat_sub_unsigned _ 1, stepIndex_moves r s (toNat_sub_unsigned _ 1)⟩
  case dec2 => exact ⟨toNat_sub_unsigned _ 2, stepIndex_moves r s (toNat_sub_unsigned _ 2)⟩
  case accB => exact ⟨toNat_add_signExtend (by decide) _ s.b, rfl⟩
  case accA => exact ⟨toNat_add_signExtend (by decide) _ s.a, rfl⟩
  case off8 => exact ⟨toNat_add_signExtend (by decide) _ n8, rfl⟩
  case off16 => exact ⟨toNat_add_signed _ n16, rfl⟩
  case accD => exact ⟨hd ▸ toNat_add_unsigned _ s.d, rfl⟩
  case pcr8 => exact ⟨toNat_add_signExtend (by decide) s.pc n8, rfl⟩
  case pcr16 => exact ⟨toNat_add_signed s.pc n16, rfl⟩
  refine ⟨rfl, rfl, rfl, rfl, fun ix hix => ?_⟩
  have hbit : isIndirect ix = i := isIndirect_of_mem_formsWithBit hix
  cases i with
  | true => exact eaIndexed_of_indirect hbit s
  | false => exact eaIndexed_of_direct hbit s

/-! ## Branches (R159) -/

/-- The model's conditions are those of the table. -/
theorem condHolds_eq (c : Cond) (cc : Byte) : condHolds c cc = branchTaken c (ccN cc) (ccZ cc) (ccV cc) (ccC cc) := by
  cases c <;> simp [condHolds, branchTaken]

theorem branch_pc (c : Cond) (target : Word) (s : State) :
    (branch c target s).pc = if condHolds c s.cc then target else s.pc := by
  unfold branch
  split <;> rfl

theorem branch_frame (c : Cond) (target : Word) (s : State) : SameBut [.pc] s (branch c target s) := by
  unfold branch
  split
  · exact putPc_frame target s
  · exact SameBut.refl _ s

/-- Where a branch goes, as a number. -/
theorem branch_pc_toNat (c : Cond) (target : Word) (s : State) {v : Int} (hv : (target.toNat : Int) = v) :
    ((branch c target s).pc.toNat : Int) =
      if branchTaken c (ccN s.cc) (ccZ s.cc) (ccV s.cc) (ccC s.cc) then v else s.pc.toNat := by
  rw [branch_pc, condHolds_eq, ← hv]
  split <;> rfl

/-- Settles O44: the target is PC plus the signed displacement, and PC is all that changes. -/
theorem branchResult : Obligations.BranchResult := by
  intro c rr disp s taken
  exact ⟨⟨_, exec_branch c rr s, branch_pc_toNat c _ s (toNat_add_signExtend (by decide) s.pc rr), branch_frame c _ s⟩,
    _, exec_longBranch c disp s, branch_pc_toNat c _ s (toNat_add_signed s.pc disp), branch_frame c _ s⟩

/-- After a step that kept PC and left the condition as `taken`, the short and the long branch complete, and each goes to its
displacement exactly if `taken`. -/
theorem branches_after {s t : State} {c : Cond} {taken : Bool} (hpc : t.pc = s.pc) (hc : condHolds c t.cc = taken)
    (rr : Byte) (disp : Word) :
    ∃ u w, exec (branchInstr c rr) t = .next u ∧ (u.pc = if taken then s.pc + rr.signExtend 16 else s.pc) ∧
      exec (longBranchInstr c disp) t = .next w ∧ w.pc = if taken then s.pc + disp else s.pc := by
  refine ⟨_, _, exec_branch c rr t, ?_, exec_longBranch c disp t, ?_⟩
  · rw [branch_pc, hc, relTarget8, hpc]
    rfl
  · rw [branch_pc, hc, relTarget16, hpc]

theorem Source8.read_pc (src : Source8) (s : State) : (src.read s).2.pc = s.pc := by
  obtain ⟨-, -, hpc, -⟩ := src.not_touched
  exact src.read_frame s .pc hpc

theorem Source16.read_pc (src : Source16) (s : State) : (src.read s).2.pc = s.pc := by
  obtain ⟨-, -, hpc, -⟩ := src.not_touched
  exact src.read_frame s .pc hpc

/-- After the flags of a difference of bytes a condition decides the order of the bytes. -/
theorem condHolds_sub8 (c : Cond) (a m : Byte) (s : State) :
    condHolds c (putFlags (sub8 a m false).2 s).cc = orderHolds c a m := by
  have hd : (((sub8 a m false).1.toNat : Nat) : Int) = ((a.toNat : Int) - m.toNat) % 256 := by
    simpa [IsDifference] using sub8_isDifference a m false
  have hflags := sub_flags a m false s
  exact condHolds_difference8 c a m _ _ hd (hflags.get 0 rfl) (hflags.get 1 rfl) (hflags.get 2 rfl) (hflags.get 3 rfl)

/-- After the flags of a difference of words a condition decides the order of the words. -/
theorem condHolds_sub16 (c : Cond) (a m : Word) (s : State) :
    condHolds c (putFlags (sub16 a m).2 s).cc = orderHolds c a m := by
  have hflags := sub16_flags a m s
  exact condHolds_difference16 c a m _ _ (sub16_toNat a m) (hflags.get 0 rfl) (hflags.get 1 rfl)
    (hflags.get 2 rfl) (hflags.get 3 rfl)

/-- Settles O45: the flags of a difference decide the order, and neither the compare nor its operand moves PC. -/
theorem branchAfterCompare : Obligations.BranchAfterCompare := by
  refine ⟨fun r src s c rr disp => ?byte, fun r src s c rr disp => ?word⟩
  case byte =>
    obtain ⟨u, w, hbranches⟩ := branches_after ((putFlags_pc _ _).trans (src.read_pc s))
      (condHolds_sub8 c (readAcc r s) (src.read s).1 (src.read s).2) rr disp
    exact ⟨_, u, w, exec_compare_answer (.inl rfl) r src s, hbranches⟩
  case word =>
    obtain ⟨u, w, hbranches⟩ := branches_after ((putFlags_pc _ _).trans (src.read_pc s))
      (condHolds_sub16 c (readReg16 r (src.read s).2) (src.read s).1 (src.read s).2) rr disp
    exact ⟨_, u, w, exec_cmp16 r src s, hbranches⟩

end Sys2Proof.Machine

/-! # Stacks and register transfers (O11, O47, O48, O49) -/

namespace Sys2Proof.Machine

/-! ## Push and pull (40_common_operations R160, R161) -/

/-- Settles O47: a push of a mask is a push of its bytes, which are few. -/
theorem pushResult : Obligations.PushResult := by
  intro k mask s bytes
  have hlength : bytes.length < 65536 := (pushedBytes_length k mask s).trans_lt (by decide)
  have hsp : stackPointer k (pushBytes k bytes s) = stackPointer k s - BitVec.ofNat 16 bytes.length := by
    rw [pushBytes_eq, stackPointer_move]
  have hmove : SameBut [k.part] (storeDown bytes (stackPointer k s) s) (pushBytes k bytes s) := by
    rw [pushBytes_eq]
    exact moveStack_frame k _ _
  exact ⟨_, (exec_push k mask s).trans (congrArg _ (pushRegs_eq k mask s)), hsp,
    writes_of (storeDown_frame bytes _ s) hmove, pushBytes_bytes k bytes s hlength⟩

/-- Settles O48: `pullRegs_spec` says what each register takes and what a pull may change. -/
theorem pullResult : Obligations.PullResult := by
  intro k mask s size l read8 read16
  obtain ⟨⟨hsp, hsame⟩, hcc, ha, hb, hdp, hx, hy, hother, hpc, harmed⟩ := pullRegs_spec k mask s
  exact ⟨_, exec_pull k mask s, hsp, hcc, ha, hb, hdp, hx, hy, hother, hpc, harmed,
    writes_of (readUp_frame size _ s) hsame⟩

/-! ## `EXG` and `TFR` (R163) -/

/-- The value of a register is made of its own pieces. -/
theorem codeValue_congr {r : RegCode} {s t : State} (h : ∀ p ∈ codeParts r, p.same s t) : codeValue r t = codeValue r s := by
  cases r with
  | d => exact congrArg₂ joinBytes (h .a (by decide)) (h .b (by decide))
  | x => exact h .x (by decide)
  | y => exact h .y (by decide)
  | u => exact h .u (by decide)
  | s => exact h .s (by decide)
  | pc => exact h .pc (by decide)
  | a => exact congrArg zeroExtend8 (h .a (by decide))
  | b => exact congrArg zeroExtend8 (h .b (by decide))
  | dp => exact congrArg zeroExtend8 (h .dp (by decide))
  | cc =>
    exact congrArg zeroExtend8 (cc_ext ⟨h (.flag .e) (by decide), h (.flag .f) (by decide), h (.flag .h) (by decide),
      h (.flag .i) (by decide), h (.flag .n) (by decide), h (.flag .z) (by decide), h (.flag .v) (by decide),
      h (.flag .c) (by decide)⟩)

/-- Two registers of one width share no piece: D is A and B, which are of the other width. -/
theorem codeParts_disjoint {r1 r2 : RegCode} (hne : r1 ≠ r2) (hw : isWide r1 = isWide r2) :
    ∀ p ∈ codeParts r1, p ∉ codeParts r2 := by
  revert hne hw
  cases r1 <;> cases r2 <;> decide

/-- A write of a register of `EXG` and `TFR`; of a word an 8-bit register takes the low byte. -/
def writeCode (r : RegCode) (v : Word) (s : State) : State :=
  if isWide r then regWrite16 r v s else regWrite8 r (loByte v) s

theorem loByte_zeroExtend8 (v : Byte) : loByte (zeroExtend8 v) = v := by
  apply BitVec.eq_of_toNat_eq
  have := v.isLt
  simp only [loByte, zeroExtend8, BitVec.extractLsb'_toNat, BitVec.truncate_eq_setWidth, BitVec.toNat_setWidth]
  omega

theorem writeCode_frame (r : RegCode) (v : Word) (s : State) : SameBut (codeParts r) s (writeCode r v s) := by
  unfold writeCode
  split
  · exact regWrite16_frame r v s
  · exact regWrite8_frame r _ s

theorem transferReg_eq {r1 r2 : RegCode} (hw : isWide r1 = isWide r2) (s : State) :
    transferReg r1 r2 s = writeCode r2 (codeValue r1 s) s := by
  unfold transferReg writeCode codeValue
  rw [← hw]
  cases isWide r1 <;> simp [loByte_zeroExtend8]

theorem exchangeRegs_eq {r1 r2 : RegCode} (hw : isWide r1 = isWide r2) (s : State) :
    exchangeRegs r1 r2 s = writeCode r2 (codeValue r1 s) (writeCode r1 (codeValue r2 s) s) := by
  unfold exchangeRegs writeCode codeValue
  rw [← hw]
  cases isWide r1 <;> simp [loByte_zeroExtend8]

theorem regRead16_regWrite16 {r : RegCode} (hw : isWide r = true) (v : Word) (s : State) :
    regRead16 r (regWrite16 r v s) = v := by
  cases r with
  | d => exact putD_d v s
  | x | y | u | s | pc => rfl
  | a | b | cc | dp => cases hw

theorem regRead8_regWrite8 {r : RegCode} (hw : isWide r = false) (v : Byte) (s : State) :
    regRead8 r (regWrite8 r v s) = v := by
  cases r with
  | a | b | cc | dp => rfl
  | d | x | y | u | s | pc => cases hw

/-- A register written with the value of one of its width holds that value. -/
theorem codeValue_writeCode {r1 r2 : RegCode} (hw : isWide r1 = isWide r2) (s t : State) :
    codeValue r2 (writeCode r2 (codeValue r1 s) t) = codeValue r1 s := by
  unfold codeValue writeCode
  cases h : isWide r2 with
  | true => simp [hw, h, regRead16_regWrite16]
  | false => simp [hw, h, regRead8_regWrite8, loByte_zeroExtend8]

/-- Of the registers only a write of S arms NMI (60_exceptions R206). -/
theorem writeCode_nmiArmed (r : RegCode) (v : Word) (s : State) :
    (writeCode r v s).nmiArmed = (s.nmiArmed || r == .s) := by
  cases r with
  | s => exact (Bool.or_true _).symm
  | d | x | y | u | pc | a | b | cc | dp => exact (Bool.or_false _).symm

/-- The second write of an exchange leaves what the first wrote, or writes the same register again. -/
theorem exchangeRegs_first {r1 r2 : RegCode} (hw : isWide r1 = isWide r2) (s : State) :
    codeValue r1 (exchangeRegs r1 r2 s) = codeValue r2 s := by
  rw [exchangeRegs_eq hw]
  by_cases hne : r1 = r2
  · subst hne
    exact codeValue_writeCode rfl _ _
  · have hkept := codeValue_congr (r := r1) fun p hp =>
      writeCode_frame r2 (codeValue r1 s) (writeCode r1 (codeValue r2 s) s) p (codeParts_disjoint hne hw p hp)
    exact hkept.trans (codeValue_writeCode hw.symm _ _)

/-- Settles O49: on one width both are writes of values read before. -/
theorem transferResult : Obligations.TransferResult := by
  intro r1 r2 s
  refine ⟨fun hw => ⟨?exg, ?tfr⟩, fun hne => ?refused⟩
  case exg =>
    have hexec : exec (.exg r1 r2) s = .next (exchangeRegs r1 r2 s) := if_pos (beq_iff_eq.mpr hw)
    refine ⟨_, hexec, exchangeRegs_first hw s, ?_, ?_, exchangeRegs_frame r1 r2 s⟩
    · rw [exchangeRegs_eq hw, codeValue_writeCode hw]
    · rw [exchangeRegs_eq hw, writeCode_nmiArmed, writeCode_nmiArmed, Bool.or_assoc]
  case tfr =>
    have hexec : exec (.tfr r1 r2) s = .next (transferReg r1 r2 s) := if_pos (beq_iff_eq.mpr hw)
    refine ⟨_, hexec, ?_, ?_, transferReg_frame r1 r2 s⟩
    · rw [transferReg_eq hw, codeValue_writeCode hw]
    · rw [transferReg_eq hw, writeCode_nmiArmed]
  case refused =>
    have hwidths : ¬(isWide r1 == isWide r2) = true := fun h => hne (beq_iff_eq.mp h)
    exact ⟨if_neg hwidths, if_neg hwidths⟩

/-! ## A pull after a push (R138, R139) -/

theorem SameBut.drop {l m : List Part} {s t : State} (h : SameBut (l ++ m) s t) (hl : ∀ p ∈ l, p.same s t) :
    SameBut m s t := by
  intro p hp
  by_cases hpl : p ∈ l
  · exact hl p hpl
  · exact h p (by simp [hpl, hp])

/-- The addresses below a stack pointer, by their distance from it. -/
theorem mem_addresses_below {n : Nat} (hn : n < 65536) (sp a : Word) :
    a ∈ addressesUp n (sp - BitVec.ofNat 16 n) ↔ (sp - 1 - a).toNat < n := by
  rw [mem_addressesUp _ _ _ hn]
  have := sp.isLt
  have := a.isLt
  simp only [BitVec.toNat_sub, BitVec.ofNat_eq_ofNat, BitVec.toNat_ofNat]
  omega

/-- Reading up what was stored down in RAM gives the bytes in the opposite order. -/
theorem readUp_stored {l : List Byte} {sp : Word} {s t : State} (hl : l.length < 65536) (hwf : Memory.wf s.mem = true)
    (hram : ∀ a ∈ addressesUp l.length (sp - BitVec.ofNat 16 l.length), isRam s.params a = true)
    (hmem : t.mem = (storeDown l sp s).mem) (hparams : t.params = s.params) :
    readUp l.length (sp - BitVec.ofNat 16 l.length) t = (l.reverse, t) := by
  have hplain : ∀ a ∈ addressesUp l.length (sp - BitVec.ofNat 16 l.length), isPlain t.params a = true :=
    fun a ha => isPlain_of_isRam (hparams ▸ hram a ha)
  have hbelow : ∀ i < l.length, isRam s.params (sp - 1 - BitVec.ofNat 16 i) = true := by
    intro i hi
    refine hram _ ((mem_addresses_below hl sp _).mpr ?_)
    have := sp.isLt
    simp only [BitVec.toNat_sub, BitVec.ofNat_eq_ofNat, BitVec.toNat_ofNat]
    omega
  refine Prod.ext (List.ext_getElem ?_ fun j hj hj' => ?_) (by rw [readUp_plain hplain])
  · rw [readUp_length, List.length_reverse]
  · rw [readUp_length] at hj
    have haddress : sp - BitVec.ofNat 16 l.length + BitVec.ofNat 16 j = sp - 1 - BitVec.ofNat 16 (l.length - 1 - j) := by
      apply BitVec.eq_of_toNat_eq
      have := sp.isLt
      simp only [BitVec.toNat_sub, BitVec.toNat_add, BitVec.ofNat_eq_ofNat, BitVec.toNat_ofNat]
      omega
    have hbyte := byteOf_readUp hplain hj
    rw [haddress, hmem, storeDown_read hl hwf hbelow (by omega)] at hbyte
    rw [List.getElem_reverse, ← hbyte, byteOf, List.getD_eq_getElem]

/-- The bytes of the register that a mask bit names, from its lowest address up: a word's high byte first. -/
def registerBytes (k : StackReg) (s : State) : Nat → List Byte
  | 0 => [s.cc]
  | 1 => [s.a]
  | 2 => [s.b]
  | 3 => [s.dp]
  | 4 => (pushedWord s.x).reverse
  | 5 => (pushedWord s.y).reverse
  | 6 => (pushedWord (stackPointer (otherStack k) s)).reverse
  | _ => (pushedWord s.pc).reverse

/-- The bytes that the mask bits below `j` select, from the lowest address up. -/
def stackedBytes (k : StackReg) (mask : Byte) (s : State) : Nat → List Byte
  | 0 => []
  | j + 1 => stackedBytes k mask s j ++ selected (mask.getLsbD j) (registerBytes k s j)

theorem selected_reverse (bit : Bool) (l : List Byte) : (selected bit l).reverse = selected bit l.reverse := by
  cases bit <;> rfl

/-- A push stores the bytes of its mask from the highest address down. -/
theorem pushedBytes_reverse (k : StackReg) (mask : Byte) (s : State) :
    (pushedBytes k mask s).reverse = stackedBytes k mask s 8 := by
  simp only [pushedBytes, List.reverse_append, selected_reverse, List.reverse_singleton, stackedBytes, registerBytes,
    List.nil_append, List.append_assoc]

theorem registerBytes_length (k : StackReg) (s : State) (j : Nat) :
    (registerBytes k s j).length = if j < 4 then 1 else 2 := by
  match j with
  | 0 | 1 | 2 | 3 | 4 | 5 | 6 => rfl
  | j + 7 => exact (if_neg (by omega)).symm

theorem stackedBytes_length (k : StackReg) (mask : Byte) (s : State) (j : Nat) :
    (stackedBytes k mask s j).length = maskOffset mask j := by
  induction j with
  | zero => rfl
  | succ j ih =>
    rw [stackedBytes, List.length_append, ih, offset_succ, selected]
    split
    · rw [registerBytes_length]
    · rfl

/-- The bytes of higher mask bits follow those of lower ones. -/
theorem stackedBytes_append (k : StackReg) (mask : Byte) (s : State) {i j : Nat} (h : i ≤ j) :
    ∃ rest, stackedBytes k mask s j = stackedBytes k mask s i ++ rest := by
  induction j, h using Nat.le_induction with
  | base => exact ⟨[], (List.append_nil _).symm⟩
  | succ j _ ih =>
    obtain ⟨rest, hrest⟩ := ih
    exact ⟨rest ++ selected (mask.getLsbD j) (registerBytes k s j), by rw [stackedBytes, hrest, List.append_assoc]⟩

/-- The bytes of a register that the mask names stand at its offset. -/
theorem byteOf_stackedBytes {k : StackReg} {mask : Byte} {s : State} {j n : Nat} (hj : j < 8)
    (hbit : mask.getLsbD j = true) (hn : n < (registerBytes k s j).length) :
    byteOf (stackedBytes k mask s 8) (maskOffset mask j + n) = byteOf (registerBytes k s j) n := by
  obtain ⟨rest, hrest⟩ := stackedBytes_append k mask s (i := j + 1) (j := 8) hj
  have hlength := stackedBytes_length k mask s j
  rw [hrest, stackedBytes, selected, if_pos hbit, List.append_assoc, byteOf, byteOf,
    List.getD_append_right _ _ _ _ (by omega), List.getD_append _ _ _ _ (by omega), hlength, Nat.add_sub_cancel_left]

/-- A byte register finds its own byte again, or was not named. -/
theorem pulled_byte {k : StackReg} {mask : Byte} {s : State} {j : Nat} {v : Byte} (hj : j < 8)
    (hv : registerBytes k s j = [v]) :
    (if mask.getLsbD j then byteOf (stackedBytes k mask s 8) (maskOffset mask j) else v) = v := by
  split
  · have h := byteOf_stackedBytes (n := 0) hj ‹_› (by rw [hv]; exact Nat.zero_lt_one)
    exact h.trans (hv ▸ rfl)
  · rfl

/-- A word register finds its own word again, or was not named. -/
theorem pulled_word {k : StackReg} {mask : Byte} {s : State} {j : Nat} {v : Word} (hj : j < 8)
    (hv : registerBytes k s j = (pushedWord v).reverse) :
    (if mask.getLsbD j then wordOf (stackedBytes k mask s 8) (maskOffset mask j) else v) = v := by
  split
  · have hhigh := byteOf_stackedBytes (n := 0) hj ‹_› (by rw [hv]; exact Nat.zero_lt_two)
    have hlow := byteOf_stackedBytes (n := 1) hj ‹_› (by rw [hv]; exact Nat.one_lt_two)
    rw [hv] at hhigh hlow
    exact (congrArg₂ joinBytes hhigh hlow).trans (joinBytes_halves v)
  · rfl

/-- The registers that a mask can name, and the two stack pointers. -/
def registerParts : List Part := ccParts ++ [.a, .b, .dp, .x, .y, .u, .s, .pc]

theorem flag_same_of_cc {s t : State} (h : t.cc = s.cc) (k : Flag) : (Part.flag k).same s t := by
  unfold Part.same Flag.read
  rw [h]

theorem registerParts_same {k : StackReg} {s t : State} (hcc : t.cc = s.cc) (ha : t.a = s.a) (hb : t.b = s.b)
    (hdp : t.dp = s.dp) (hx : t.x = s.x) (hy : t.y = s.y) (hsp : stackPointer k t = stackPointer k s)
    (hother : stackPointer (otherStack k) t = stackPointer (otherStack k) s) (hpc : t.pc = s.pc) :
    ∀ p ∈ registerParts, p.same s t := by
  obtain ⟨hu, hs⟩ : t.u = s.u ∧ t.s = s.s := by
    cases k with
    | s => exact ⟨hother, hsp⟩
    | u => exact ⟨hsp, hother⟩
  simp only [registerParts, ccParts, flagParts, List.forall_mem_append, List.forall_mem_map, List.forall_mem_cons]
  exact ⟨⟨flag_same_of_cc hcc _, flag_same_of_cc hcc _, flag_same_of_cc hcc _, flag_same_of_cc hcc _,
    flag_same_of_cc hcc _, flag_same_of_cc hcc _, flag_same_of_cc hcc _, flag_same_of_cc hcc _, nofun⟩,
    ha, hb, hdp, hx, hy, hu, hs, hpc, nofun⟩

theorem pushedBytes_length_eq (k : StackReg) (mask : Byte) (s : State) :
    (pushedBytes k mask s).length = maskOffset mask 8 := by
  rw [← List.length_reverse, pushedBytes_reverse, stackedBytes_length]

/-- A push into RAM changes memory and its stack pointer, and what a pull then reads is the bytes of the mask in order. -/
theorem readUp_pushRegs {k : StackReg} {mask : Byte} {s t : State} (ht : t = pushRegs k mask s)
    (hwf : Memory.wf s.mem = true)
    (hram : ∀ a ∈ addressesUp 12 (stackPointer k s - 12), isRam s.params a = true) :
    stackPointer k t = stackPointer k s - BitVec.ofNat 16 (maskOffset mask 8) ∧ SameBut [.mem, k.part] s t ∧
      readUp (maskOffset mask 8) (stackPointer k t) t = (stackedBytes k mask s 8, t) := by
  rw [pushRegs_eq, pushBytes_eq] at ht
  have hlength := pushedBytes_length k mask s
  have hram' : ∀ a ∈ addressesUp (pushedBytes k mask s).length
      (stackPointer k s - BitVec.ofNat 16 (pushedBytes k mask s).length), isRam s.params a = true := by
    intro a ha
    rw [mem_addresses_below (by omega)] at ha
    exact hram a ((mem_addresses_below (n := 12) (by decide) _ a).mpr (by omega))
  have hsp : stackPointer k t = stackPointer k s - BitVec.ofNat 16 (pushedBytes k mask s).length := by
    rw [ht, stackPointer_move]
  have hmove := moveStack_frame k (stackPointer k t) (storeDown (pushedBytes k mask s) (stackPointer k s) s)
  rw [hsp, ← ht] at hmove
  have hframe := (storeDown_ram_frame (by omega) hram').trans hmove
  have hmem := hmove .mem (by cases k <;> decide)
  have hparams := hframe .params (by cases k <;> decide)
  refine ⟨pushedBytes_length_eq k mask s ▸ hsp, hframe, ?_⟩
  rw [hsp, ← pushedBytes_length_eq k mask s, ← pushedBytes_reverse]
  exact readUp_stored (by omega) hwf hram' hmem hparams

/-- Settles O11: the pull reads the bytes of the push in the opposite order, each register at its own offset. -/
theorem pullUndoesPush : Obligations.PullUndoesPush := by
  intro k mask s hwf hram
  obtain ⟨t, ht⟩ : ∃ t, t = pushRegs k mask s := ⟨_, rfl⟩
  obtain ⟨hsp, hpush, hread⟩ := readUp_pushRegs ht hwf hram
  obtain ⟨tpc, ty, tx, tdp, tb, ta, tcc, tother⟩ := pushBytes_regs k (pushedBytes k mask s) s
  rw [← pushRegs_eq, ← ht] at tpc ty tx tdp tb ta tcc tother
  obtain ⟨⟨usp, hpull⟩, ucc, ua, ub, udp, ux, uy, uother, upc, uarmed⟩ := pullRegs_spec k mask t
  simp only [hread] at hpull ucc ua ub udp ux uy uother upc
  refine ⟨t, pullRegs k mask t, ht ▸ exec_push k mask s, exec_pull k mask t, ?armed, ?same⟩
  case armed =>
    have tarmed : t.nmiArmed = s.nmiArmed := hpush .nmiArmed (by cases k <;> decide)
    rw [uarmed, tarmed]
  case same =>
    have hall : SameBut (registerParts ++ [.mem, .nmiArmed]) s (pullRegs k mask t) :=
      (hpush.trans hpull).mono (by cases k <;> decide)
    refine hall.drop (registerParts_same (k := k) ?_ ?_ ?_ ?_ ?_ ?_ ?_ ?_ ?_)
    · rw [ucc, tcc]; exact pulled_byte (by decide) rfl
    · rw [ua, ta]; exact pulled_byte (by decide) rfl
    · rw [ub, tb]; exact pulled_byte (by decide) rfl
    · rw [udp, tdp]; exact pulled_byte (by decide) rfl
    · rw [ux, tx]; exact pulled_word (by decide) rfl
    · rw [uy, ty]; exact pulled_word (by decide) rfl
    · rw [usp, hsp, BitVec.sub_add_cancel]
    · rw [uother, tother]; exact pulled_word (by decide) rfl
    · rw [upc, tpc]; exact pulled_word (by decide) rfl

end Sys2Proof.Machine

/-! # Extension of B: `SEX` and `ABX` (O42) -/

namespace Sys2Proof.Machine

/-! ## The sign of a byte (00_scope R9) -/

/-- A byte of copies of the sign before a byte is its sign extension. -/
theorem joinBytes_sign (v : Byte) : joinBytes (if v.msb then 0xFF#8 else 0x00#8) v = signExtend8 v :=
  (BitVec.signExtend_eq_append_of_le (x := v) (v := 16) (by decide)).symm

theorem signExtend8_toInt (v : Byte) : (signExtend8 v).toInt = v.toInt :=
  BitVec.toInt_signExtend_of_le (by decide)

theorem signExtend8_msb (v : Byte) : (signExtend8 v).msb = v.msb := by
  rw [BitVec.msb_eq_toInt, BitVec.msb_eq_toInt, signExtend8_toInt]

theorem signExtend8_eq_zero {v : Byte} : signExtend8 v = 0 ↔ v = 0 := by
  rw [← BitVec.toInt_inj, ← BitVec.toInt_inj, signExtend8_toInt]
  rfl

/-! ## `SEX` (41_ops_00_1F R1029) -/

/-- The flags of a sign extension are those of the byte extended. -/
theorem sexFlags_signExtend8 (v : Byte) : sexFlags (signExtend8 v) = nz8 v .keep .keep .keep := by
  have hzero : (signExtend8 v == 0) = (v == 0) := by
    rw [Bool.eq_iff_iff, beq_iff_eq, beq_iff_eq, signExtend8_eq_zero]
  rw [sexFlags, nz16, signExtend8_msb, hzero, nz8]

/-- `SEX` writes A, and then N and Z of B. -/
theorem signExtendB_eq (s : State) :
    signExtendB s =
      putFlags (nz8 s.b .keep .keep .keep) (writeAcc .a (if s.b.msb then 0xFF#8 else 0x00#8) s) := by
  rw [← sexFlags_signExtend8, ← joinBytes_sign]
  rfl

theorem signExtendB_b (s : State) : (signExtendB s).b = s.b := by
  rw [signExtendB_eq, putFlags_b]
  rfl

theorem signExtendB_d (s : State) : (signExtendB s).d = signExtend8 s.b := by
  rw [State.d, signExtendB_b, signExtendB_eq, putFlags_a]
  exact joinBytes_sign s.b

/-- N and Z of B are the flags that `SEX` writes. -/
theorem signExtendB_flags (s : State) : FlagsAre (signExtendB s) [(.n, s.b.msb), (.z, s.b == 0)] := by
  rw [signExtendB_eq]
  exact putFlags_puts (nz8 s.b .keep .keep .keep) _

theorem signExtendB_frame (s : State) : SameBut (.a :: flagParts [.n, .z]) s (signExtendB s) := by
  rw [signExtendB_eq]
  exact (writeAcc_frame .a _ s).trans (putFlags_parts (nz8 s.b .keep .keep .keep) _)

/-! ## `ABX` (42_ops_20_3F R1058) -/

theorem toNat_add_zeroExtend8 (a : Word) (v : Byte) : (a + zeroExtend8 v).toNat = (a.toNat + v.toNat) % 65536 := by
  have hv : (zeroExtend8 v).toNat = v.toNat := BitVec.toNat_setWidth_of_le (by decide)
  rw [BitVec.toNat_add, hv]

/-- Settles O42: D after `SEX` is the sign extension of B, and `ABX` loads X with a sum. -/
theorem extendResult : Obligations.ExtendResult := by
  intro s
  refine ⟨⟨signExtendB s, rfl, ?value, signExtendB_b s, signExtendB_flags s, signExtendB_frame s⟩,
    ⟨s.putX (s.x + zeroExtend8 s.b), rfl, toNat_add_zeroExtend8 s.x s.b, loadReg16_frame .x _ s⟩⟩
  case value => rw [signExtendB_d, signExtend8_toInt]

end Sys2Proof.Machine

/-! # Load effective address: `LEAX`, `LEAY`, `LEAU`, `LEAS` (O43) -/

namespace Sys2Proof.Machine

/-! ## The register, Z and the arming of NMI (42_ops_20_3F R1048 to R1051, 60_exceptions R206) -/

theorem leaState_read (r : IdxReg) (e : Word × State) : readIndex r (leaState r e) = e.1 := by
  cases r with
  | x => exact loadReg16_putFlags_read .x e.1 (leaFlags e.1) e.2
  | y => exact loadReg16_putFlags_read .y e.1 (leaFlags e.1) e.2
  | u => exact readReg16_load .u e.1 e.2
  | s => exact readReg16_load .s e.1 e.2

theorem leaState_ccZ {r : IdxReg} (hr : r = .x ∨ r = .y) (e : Word × State) :
    ccZ (leaState r e).cc = (e.1 == 0) := by
  obtain rfl | rfl := hr
  · exact putFlags_ccZ_put (f := leaFlags e.1) rfl
  · exact putFlags_ccZ_put (f := leaFlags e.1) rfl

theorem leaState_nmiArmed (r : IdxReg) (e : Word × State) :
    (leaState r e).nmiArmed = (e.2.nmiArmed || r == .s) := by
  cases r with
  | x => exact (putFlags_nmiArmed (leaFlags e.1) _).trans (loadReg16_nmiArmed .x e.1 e.2)
  | y => exact (putFlags_nmiArmed (leaFlags e.1) _).trans (loadReg16_nmiArmed .y e.1 e.2)
  | u => exact loadReg16_nmiArmed .u e.1 e.2
  | s => exact loadReg16_nmiArmed .s e.1 e.2

/-- Forming an address arms nothing, an auto mode on S included (30_encoding R95). -/
theorem eaIndexed_nmiArmed (ix : Indexed) (s : State) : (eaIndexed ix s).2.nmiArmed = s.nmiArmed := by
  obtain ⟨-, -, -, -, -, -, harmed, -⟩ := (MemMode.indexed ix).not_touched
  exact eaIndexed_frame ix s .nmiArmed harmed

/-- Settles O43: a load of the register from the state the address left; only X and Y add a flag, only S the arming. -/
theorem loadAddressResult : Obligations.LoadAddressResult := by
  intro r ix s
  have haddress := eaIndexed_frame ix s
  refine ⟨_, exec_lea r ix s, leaState_read r _, fun hr => leaState_ccZ hr _, ?armed, ?writes⟩
  case armed => rw [leaState_nmiArmed, eaIndexed_nmiArmed]
  case writes =>
    cases r with
    | x => exact loadReg16_putFlags_writes .x _ (leaFlags _) haddress
    | y => exact loadReg16_putFlags_writes .y _ (leaFlags _) haddress
    | u => exact writes_of haddress (loadReg16_frame .u _ _)
    | s => exact writes_of haddress (loadReg16_frame .s _ _)

end Sys2Proof.Machine

/-! # Jumps, calls and the return: `JMP`, `JSR`, `BSR`, `LBSR`, `RTS` (O46) -/

namespace Sys2Proof.Machine

/-! ## Jumps (44_memory_rmw_60_7F R1110) -/

/-- A jump leaves the state its address left but for PC. -/
theorem jumpTo_frame (e : Word × State) : SameBut [.pc] e.2 (jumpTo e) := putPc_frame e.1 e.2

/-- Forming an address does not move PC, so that a call pushes the address of the next instruction. -/
theorem MemMode.address_pc (m : MemMode) (s : State) : (m.address s).2.pc = s.pc := by
  obtain ⟨-, -, hpc, -⟩ := m.not_touched
  exact m.address_frame s .pc hpc

/-! ## Calls (45_acc_a_80_9F R1157, 41_ops_00_1F R1023, 40_common_operations R139) -/

theorem callTo_s (e : Word × State) : (callTo e).s = e.2.s - 2 := by
  rw [call_eq]
  rfl

/-- Once the return address is stored, a call moves S and PC alone. -/
theorem callTo_frame (e : Word × State) : SameBut [.pc, .s] (storeDown (pushedWord e.2.pc) e.2.s e.2) (callTo e) := by
  rw [call_eq]
  exact ((moveStack_frame .s _ _).trans (putPc_frame e.1 _)).mono (by decide)

/-- The two bytes a call stores are those from the new S upwards. -/
theorem callTo_bytes (e : Word × State) : BytesSameBut (addressesUp 2 (callTo e).s) e.2 (callTo e) :=
  pushBytes_bytes .s (pushedWord e.2.pc) e.2 (show 2 < 65536 by decide)

/-- A call to an address that takes no access to form, as `BSR` and `LBSR` make it. -/
theorem callTo_here (target : Word) (s : State) :
    (callTo (target, s)).s = s.s - 2 ∧
      Writes [.pc, .s] [.mem, .via, .draws] s (storeDown (pushedWord s.pc) s.s s) (callTo (target, s)) ∧
      BytesSameBut (addressesUp 2 (callTo (target, s)).s) s (callTo (target, s)) :=
  ⟨callTo_s (target, s), writes_of (storeDown_frame _ _ s) (callTo_frame (target, s)), callTo_bytes (target, s)⟩

/-- A call to the effective address of an operand. -/
theorem callTo_address (m : MemMode) (s : State) :
    Writes [.pc, .s] (.mem :: m.touches) s (storeDown (pushedWord s.pc) (m.address s).2.s (m.address s).2)
        (callTo (m.address s)) ∧
      BytesSameBut (addressesUp 2 (callTo (m.address s)).s) s (callTo (m.address s)) := by
  have hframe := callTo_frame (m.address s)
  rw [m.address_pc] at hframe
  exact ⟨writes_of_store (storeDown_frame _ _ _) hframe, bytesSameBut_of_mem (callTo_bytes _) (m.address_mem s) rfl⟩

/-! ## The return (42_ops_20_3F R1057, 40_common_operations R139) -/

/-- A read does not see where a stack pointer stands. -/
theorem memRead8_move (a : Word) (k : StackReg) (v : Word) (s : State) :
    memRead8 a (moveStack k v s) = ((memRead8 a s).1, moveStack k v (memRead8 a s).2) := by
  cases k <;> (simp only [memRead8, moveStack, putS_params, putU_params]; split <;> rfl)

/-- A pull of a word reads the two bytes at the stack pointer upwards, the high byte first, and moves the stack pointer
past them. -/
theorem pull16_eq (k : StackReg) (s : State) :
    pull16 k s = (wordOf (readUp 2 (stackPointer k s) s).1 0,
      moveStack k (stackPointer k s + 2) (readUp 2 (stackPointer k s) s).2) := by
  have hsp : stackPointer k s + 1 + 1 = stackPointer k s + 2 := BitVec.add_assoc _ 1 1
  simp only [pull16, pull8, stackPointer_move, memRead8_move, move_move, hsp]
  rfl

theorem pullInto16_eq (k : StackReg) (put : Word → State → State) (s : State) :
    pullInto16 k put s = put (wordOf (readUp 2 (stackPointer k s) s).1 0)
      (moveStack k (stackPointer k s + 2) (readUp 2 (stackPointer k s) s).2) := by
  rw [pullInto16, pull16_eq]

theorem exec_rts (s : State) :
    exec .rts s = .next ((moveStack .s (s.s + 2) (readUp 2 s.s s).2).putPc (wordOf (readUp 2 s.s s).1 0)) :=
  congrArg Host.Outcome.next (pullInto16_eq .s State.putPc s)

/-- Settles O46: every call is `callTo` from the state its address left, and `RTS` is a pull into PC. -/
theorem jumpAndCallResult : Obligations.JumpAndCallResult := by
  intro m rr disp s e
  refine ⟨?jmp, ?jsr, ?bsr, ?lbsr, ?rts⟩
  case jmp => exact ⟨_, exec_jmp m s, rfl, writes_of (m.address_frame s) (jumpTo_frame e)⟩
  case jsr => exact ⟨_, exec_jsr m s, rfl, callTo_s e, callTo_address m s⟩
  case bsr => exact ⟨_, rfl, toNat_add_signExtend (by decide) s.pc rr, callTo_here (relTarget8 rr s) s⟩
  case lbsr => exact ⟨_, rfl, toNat_add_signed s.pc disp, callTo_here (relTarget16 disp s) s⟩
  case rts =>
    have hmove := (moveStack_frame .s (s.s + 2) (readUp 2 s.s s).2).trans (putPc_frame (wordOf (readUp 2 s.s s).1 0) _)
    exact ⟨_, exec_rts s, rfl, rfl, writes_of (readUp_frame 2 s.s s) (hmove.mono (by decide))⟩

end Sys2Proof.Machine

/-! # Interrupts: waits, entries and returns (O8, O9, O10, O52, O53, O54)

An entry is `storeDown` of the bytes `frameBytes` names, and a return is a pull: of the whole mask when the CC pulled has E = 1,
of CC and PC alone when it has E = 0. Both are stated once below, and the six statements are read off them. -/

namespace Sys2Proof.Machine

/-! ## Waits (60_exceptions R217 to R219) -/

theorem putWait_frame (v : Wait) (s : State) : SameBut [.wait] s (s.putWait v) := by
  rw [sameBut_iff]; simp

theorem putS_frame (v : Word) (s : State) : SameBut [.s] s (s.putS v) := moveStack_frame .s v s

theorem putNmiPending_frame (v : Bool) (s : State) : SameBut [.nmiPending] s (s.putNmiPending v) := by
  rw [sameBut_iff]; simp

/-- `CWAI`, as the bytes it stores and the pieces it then writes. -/
theorem clearAndWait_eq (ii : Byte) (s : State) :
    clearAndWait ii s =
      (((storeDown (entireFrame ((s.cc &&& ii) ||| 0x80) s) s.s s).putCc ((s.cc &&& ii) ||| 0x80)).putS
        (s.s - 12)).putWait .cwai :=
  congrArg (State.putWait .cwai) (pushEntire_putCc _ s)

/-- The bytes of an entire frame are the twelve below S. -/
theorem entireFrame_bytes (cc : Byte) (s : State) :
    BytesSameBut (addressesUp 12 (s.s - 12)) s (storeDown (entireFrame cc s) s.s s) := by
  have h := storeDown_bytes (entireFrame cc s) s.s s
  rw [entireFrame_length] at h
  exact h (by decide)

/-- Settles O52: `SYNC` and `WAI` write the wait state alone, `CWAI` stores the entire frame first. -/
theorem waitResult : Obligations.WaitResult := by
  intro ii s
  refine ⟨⟨s.putWait .sync, rfl, rfl, putWait_frame .sync s⟩, ⟨s.putWait .wai, rfl, rfl, putWait_frame .wai s⟩,
    clearAndWait ii s, rfl, ?_⟩
  rw [clearAndWait_eq]
  have hbytes := entireFrame_bytes ((s.cc &&& ii) ||| 0x80) s
  have hstore := storeDown_frame (entireFrame ((s.cc &&& ii) ||| 0x80) s) s.s s
  generalize storeDown (entireFrame ((s.cc &&& ii) ||| 0x80) s) s.s s = stored at hbytes hstore ⊢
  refine ⟨rfl, rfl, rfl, writes_of hstore ?_, hbytes⟩
  exact ((putCc_frame _ _).trans ((putS_frame _ _).trans (putWait_frame _ _))).mono (by decide)

/-! ## Entries (60_exceptions R207 to R212, R220) -/

/-- The bytes of a frame are those below S. -/
theorem frameBytes_bytes (k : Interrupt) (s : State) :
    BytesSameBut (addressesUp (frameBytes k s).length (s.s - BitVec.ofNat 16 (frameBytes k s).length)) s
      (storeDown (frameBytes k s) s.s s) :=
  storeDown_bytes _ _ _ (by rw [frameBytes_length]; split <;> decide)

/-- Reads of a word do not see the pieces that a memory access has no use for. -/
theorem memRead16_congr {l : List Part} (a : Word) {x y : State} (h : SameBut l x y) (hp : Part.params ∉ l)
    (hm : Part.mem ∉ l) (hv : Part.via ∉ l) (hd : Part.draws ∉ l) :
    (memRead16 a y).1 = (memRead16 a x).1 ∧ SameBut l (memRead16 a x).2 (memRead16 a y).2 := by
  obtain ⟨hhigh, hstate⟩ := memRead8_congr a h hp hm hv hd
  obtain ⟨hlow, hstate'⟩ := memRead8_congr (a + 1) hstate hp hm hv hd
  exact ⟨congrArg₂ joinBytes hhigh hlow, hstate'⟩

/-- The masks of an entry are I and F. -/
theorem putCc_maskOnEntry_frame (k : Interrupt) (s : State) :
    SameBut [.flag .i, .flag .f] s (s.putCc (maskOnEntry k s.cc)) := by
  rw [sameBut_iff]; simp [maskOnEntry_flags]

theorem putCc_putE_frame (bit : Bool) (s : State) : SameBut [.flag .e] s (s.putCc (putE bit s.cc)) := by
  rw [sameBut_iff]; simp

/-- The pieces an entry writes besides its frame and PC. -/
def entryParts : List Part := [.flag .e, .flag .i, .flag .f, .s, .nmiPending]

/-- An entry with stacking: the frame is stored, the vector is read, and S, CC, PC and the NMI latch are as here. -/
structure Entered (k : Interrupt) (s t : State) : Prop where
  sp : t.s = s.s - BitVec.ofNat 16 (frameBytes k s).length
  cc : t.cc = maskOnEntry k (putE (k != .firq) s.cc)
  nmiPending : t.nmiPending = (s.nmiPending && k != .nmi)
  mem : t.mem = (storeDown (frameBytes k s) s.s s).mem
  pc : t.pc = (memRead16 (vectorOf k) (storeDown (frameBytes k s) s.s s)).1
  same : SameBut (.pc :: entryParts) (memRead16 (vectorOf k) (storeDown (frameBytes k s) s.s s)).2 t

theorem enterInterrupt_entered (k : Interrupt) (s : State) : Entered k s (enterInterrupt k true s) := by
  have hcc : (storeDown (frameBytes k s) s.s s).cc = s.cc := (storeDown_frame _ _ s).cc (by simp)
  have hentry := enterInterrupt_stack k s
  rw [vectorAddress_eq, ← hcc] at hentry
  rw [hentry]
  obtain ⟨sp, hsp⟩ : ∃ v, v = s.s - BitVec.ofNat 16 (frameBytes k s).length := ⟨_, rfl⟩
  rw [← hsp]
  generalize hstored : storeDown (frameBytes k s) s.s s = stored at hcc ⊢
  obtain ⟨masked, hmasked⟩ : ∃ m, m = ((stored.putCc (maskOnEntry k (putE (k != .firq) stored.cc))).putS
    sp).putNmiPending (s.nmiPending && k != .nmi) := ⟨_, rfl⟩
  have hframe : SameBut entryParts stored masked :=
    hmasked ▸ ((putCc_putE_frame _ stored).trans ((putCc_maskOnEntry_frame k _).trans
      ((putS_frame sp _).trans (putNmiPending_frame _ _)))).mono (by decide)
  obtain ⟨hword, hread⟩ := memRead16_congr (vectorOf k) hframe (by decide) (by decide) (by decide) (by decide)
  have hkeep := memRead16_frame (vectorOf k) masked
  rw [← hmasked, loadVector]
  refine ⟨?_, ?_, ?_, ?_, ?_, ?_⟩
  · exact (hkeep .s (by decide)).trans (by rw [hmasked, ← hsp]; rfl)
  · exact (hkeep.cc (by simp)).trans (by rw [hmasked, ← hcc]; rfl)
  · exact (hkeep .nmiPending (by decide)).trans (by rw [hmasked]; rfl)
  · exact (hkeep .mem (by decide)).trans (by rw [hmasked, hstored]; rfl)
  · rw [hstored]; exact hword
  · rw [hstored]
    exact (hread.trans (putPc_frame _ _)).mono (by decide)

/-- CC after an entry: E tells the frame, I and F are set as 60_exceptions R201 lists. -/
theorem Entered.flags {k : Interrupt} {s t : State} (h : Entered k s t) :
    ccE t.cc = (k != .firq) ∧
    ccI t.cc = (ccI s.cc || (k == .nmi || k == .firq || k == .irq || k == .swi)) ∧
    ccF t.cc = (ccF s.cc || (k == .nmi || k == .firq || k == .swi)) := by
  obtain ⟨he, hi, hf, -⟩ := maskOnEntry_flags k (putE (k != .firq) s.cc)
  rw [h.cc, he, hi, hf, ccE_putE, ccI_putE, ccF_putE]
  exact ⟨rfl, rfl, rfl⟩

theorem Entered.bytes {k : Interrupt} {s t : State} (h : Entered k s t) :
    BytesSameBut (addressesUp (frameBytes k s).length t.s) s t := by
  intro a ha
  rw [h.mem]
  exact frameBytes_bytes k s a (h.sp ▸ ha)

/-! ## Software interrupts (R212) -/

/-- Settles O53: the entry of the three instructions, whose frame is the entire one and which leave the NMI latch alone. -/
theorem softwareInterruptResult : Obligations.SoftwareInterruptResult := by
  intro k i s hk pushed vector
  have hentered := enterInterrupt_entered k s
  obtain ⟨hframe, hnmi⟩ : frameBytes k s = entireFrame (s.cc ||| 0x80) s ∧ (k != .nmi) = true := by
    cases k <;> cases hk <;> exact ⟨rfl, rfl⟩
  obtain ⟨he, hi, hf⟩ := hentered.flags
  have hbytes := hentered.bytes
  obtain ⟨hsp, -, hpending, -, hpc, hsame⟩ := hentered
  rw [hframe] at hsp hpc hsame hbytes
  have hread : SameBut [.mem, .via, .draws] s vector.2 :=
    ((storeDown_frame _ _ s).trans (memRead16_frame _ _)).mono (by decide)
  have hlatch : (enterInterrupt k true s).nmiPending = vector.2.nmiPending := by
    rw [hpending, hnmi, Bool.and_true]
    exact (hread .nmiPending (by decide)).symm
  refine ⟨_, exec_swi hk s, hpc, hsp, ?flags, writes_of hread ?frame, hbytes⟩
  case flags =>
    simp only [FlagsAre, List.forall_mem_cons]
    refine ⟨?_, ?_, ?_, nofun⟩
    · exact he.trans (by cases k <;> cases hk <;> rfl)
    · exact hi.trans (by cases k <;> cases hk <;> rfl)
    · exact hf.trans (by cases k <;> cases hk <;> rfl)
  case frame =>
    have hdrop : SameBut ([.nmiPending] ++ [.pc, .s, .flag .e, .flag .i, .flag .f]) vector.2 (enterInterrupt k true s) :=
      hsame.mono (by decide)
    exact hdrop.drop (List.forall_mem_singleton.mpr hlatch)

/-! ## Entries with the frame in RAM and the vector in RAM or ROM -/

/-- The bytes a frame takes are RAM. -/
def FrameInRam (k : Interrupt) (s : State) : Prop :=
  ∀ a ∈ addressesUp (frameBytes k s).length (s.s - BitVec.ofNat 16 (frameBytes k s).length), isRam s.params a = true

/-- The two bytes of an interrupt's vector are RAM or ROM. -/
def VectorPlain (k : Interrupt) (s : State) : Prop :=
  isPlain s.params (vectorOf k) = true ∧ isPlain s.params (vectorOf k + 1) = true

theorem frameBytes_length_lt (k : Interrupt) (s : State) : (frameBytes k s).length < 65536 := by
  rw [frameBytes_length]; split <;> decide

/-- In RAM an entry changes memory and the pieces it writes, and no access has a side effect. -/
theorem enterInterrupt_ram_frame {k : Interrupt} {s : State} (hram : FrameInRam k s) (hvec : VectorPlain k s) :
    SameBut (.mem :: .pc :: entryParts) s (enterInterrupt k true s) ∧
      (enterInterrupt k true s).pc = wordAt (enterInterrupt k true s).mem (vectorOf k) := by
  obtain ⟨-, -, -, hmem, hpc, hsame⟩ := enterInterrupt_entered k s
  have hstore : SameBut [.mem] s (storeDown (frameBytes k s) s.s s) :=
    storeDown_ram_frame (frameBytes_length_lt k s) hram
  have hparams : (storeDown (frameBytes k s) s.s s).params = s.params := hstore .params (by decide)
  obtain ⟨hlow, hhigh⟩ := hvec
  rw [memRead16_of_plain (by rwa [hparams]) (by rwa [hparams])] at hpc hsame
  exact ⟨hstore.trans hsame, by rw [hpc, hmem]⟩

/-- In RAM, reading up from S after an entry gives the bytes of the frame, the last one stacked first. -/
theorem readUp_entered {k : Interrupt} {s : State} (hwf : Memory.wf s.mem = true) (hram : FrameInRam k s) :
    readUp (frameBytes k s).length (enterInterrupt k true s).s (enterInterrupt k true s) =
      ((frameBytes k s).reverse, enterInterrupt k true s) := by
  have h := enterInterrupt_entered k s
  rw [h.sp]
  exact readUp_stored (frameBytes_length_lt k s) hwf hram h.mem (enterInterrupt_keeps k true s).params

/-- In RAM, the byte at an offset from S after an entry. -/
theorem read_entered {k : Interrupt} {s : State} (hwf : Memory.wf s.mem = true) (hram : FrameInRam k s) {j : Nat}
    (hj : j < (frameBytes k s).length) :
    Memory.read (enterInterrupt k true s).mem ((enterInterrupt k true s).s + BitVec.ofNat 16 j).toNat =
      byteOf (frameBytes k s).reverse j := by
  have h := enterInterrupt_entered k s
  have hparams := (enterInterrupt_keeps k true s).params
  have hread := byteOf_readUp (s := enterInterrupt k true s) (sp := (enterInterrupt k true s).s)
    (fun a ha => isPlain_of_isRam (hparams ▸ hram a (h.sp ▸ ha))) hj
  rw [readUp_entered hwf hram] at hread
  exact hread.symm

/-- In RAM, the word at an offset from S after an entry. -/
theorem wordAt_entered {k : Interrupt} {s : State} (hwf : Memory.wf s.mem = true) (hram : FrameInRam k s) {j : Nat}
    (hj : j + 1 < (frameBytes k s).length) :
    wordAt (enterInterrupt k true s).mem ((enterInterrupt k true s).s + BitVec.ofNat 16 j) =
      wordOf (frameBytes k s).reverse j := by
  have hnext : (enterInterrupt k true s).s + BitVec.ofNat 16 j + 1 =
      (enterInterrupt k true s).s + BitVec.ofNat 16 (j + 1) := by
    rw [BitVec.add_assoc]
    exact congrArg _ (BitVec.ofNat_add j 1).symm
  rw [wordAt, hnext, read_entered hwf hram (by omega), read_entered hwf hram hj, wordOf]

/-- Settles O8: each byte is read back at its place in the frame. -/
theorem entireFrameEntry : Obligations.EntireFrameEntry := by
  intro k s hk hwf hram hlow hhigh t
  have hframe : frameBytes k s = entireFrame (s.cc ||| 0x80) s := by
    cases k
    case firq => exact absurd rfl hk
    all_goals rfl
  have hlen : (frameBytes k s).length = 12 := by rw [hframe]; rfl
  have hin : FrameInRam k s := by rw [FrameInRam, hlen]; exact hram
  have hentered := enterInterrupt_entered k s
  obtain ⟨hsame, hpc⟩ := enterInterrupt_ram_frame hin ⟨hlow, hhigh⟩
  obtain ⟨he, hi, hf⟩ := hentered.flags
  have hbytes := hentered.bytes
  have hsp := hentered.sp
  rw [hlen] at hbytes hsp
  have byte {j : Nat} (hj : j < 12) := read_entered hwf hin (j := j) (hlen ▸ hj)
  have word {j : Nat} (hj : j + 1 < 12) := wordAt_entered hwf hin (j := j) (hlen ▸ hj)
  rw [hframe] at byte word
  refine ⟨hsp, ?cc, byte (j := 1) (by decide), byte (j := 2) (by decide), byte (j := 3) (by decide),
    ?x, ?y, ?u, ?pc, ?flags, hpc, hentered.nmiPending, hsame.mono (by decide), hbytes⟩
  case cc =>
    have h := byte (j := 0) (by decide)
    rwa [show BitVec.ofNat 16 0 = 0#16 from rfl, BitVec.add_zero] at h
  case x => exact (word (j := 4) (by decide)).trans (joinBytes_halves s.x)
  case y => exact (word (j := 6) (by decide)).trans (joinBytes_halves s.y)
  case u => exact (word (j := 8) (by decide)).trans (joinBytes_halves s.u)
  case pc => exact (word (j := 10) (by decide)).trans (joinBytes_halves s.pc)
  case flags =>
    have hfirq : (k == .firq) = false := beq_false_of_ne hk
    rw [bne, hfirq] at he
    rw [hfirq, Bool.or_false] at hi hf
    simp only [FlagsAre, List.forall_mem_cons]
    exact ⟨he, hi, hf, nofun⟩

/-! ## The fast frame, and entry from `CWAI` -/

/-- The first clause of O9: the three bytes of the fast frame. -/
theorem firqEntry {s : State} (hwf : Memory.wf s.mem = true)
    (hram : ∀ a ∈ addressesUp 3 (s.s - 3), isRam s.params a = true)
    (hlow : isPlain s.params 0xFFF6 = true) (hhigh : isPlain s.params 0xFFF7 = true) :
    let t := enterInterrupt .firq true s
    t.s = s.s - 3 ∧
    Memory.read t.mem t.s.toNat = s.cc &&& 0x7F ∧
    wordAt t.mem (t.s + 1) = s.pc ∧
    FlagsAre t [(.e, false), (.i, true), (.f, true)] ∧
    t.pc = wordAt t.mem 0xFFF6 ∧
    SameBut [.s, .mem, .flag .e, .flag .i, .flag .f, .pc] s t ∧
    BytesSameBut (addressesUp 3 t.s) s t := by
  intro t
  have hentered := enterInterrupt_entered .firq s
  obtain ⟨hsame, hpc⟩ := enterInterrupt_ram_frame (k := .firq) hram ⟨hlow, hhigh⟩
  obtain ⟨he, hi, hf⟩ := hentered.flags
  have hbyte := read_entered (k := .firq) hwf hram (j := 0) (show 0 < 3 by decide)
  have hword := wordAt_entered (k := .firq) hwf hram (j := 1) (show 2 < 3 by decide)
  rw [show BitVec.ofNat 16 0 = 0#16 from rfl, BitVec.add_zero] at hbyte
  refine ⟨hentered.sp, hbyte, hword.trans (joinBytes_halves s.pc), ?flags, hpc, ?frame, hentered.bytes⟩
  case flags =>
    simp only [FlagsAre, List.forall_mem_cons]
    exact ⟨he, hi.trans (Bool.or_true _), hf.trans (Bool.or_true _), nofun⟩
  case frame =>
    have hlatch : t.nmiPending = s.nmiPending := hentered.nmiPending.trans (Bool.and_true _)
    have hdrop : SameBut ([.nmiPending] ++ [.s, .mem, .flag .e, .flag .i, .flag .f, .pc]) s t := hsame.mono (by decide)
    exact hdrop.drop (List.forall_mem_singleton.mpr hlatch)

/-- The second clause of O9: without stacking only the masks, the NMI latch and PC are written. -/
theorem unstackedEntry {k : Interrupt} {s : State} (hvec : VectorPlain k s) :
    let t := enterInterrupt k false s
    FlagsAre t [(.i, ccI s.cc || (k == .nmi || k == .firq || k == .irq || k == .swi)),
      (.f, ccF s.cc || (k == .nmi || k == .firq || k == .swi))] ∧
    t.pc = wordAt s.mem (vectorOf k) ∧
    t.nmiPending = (s.nmiPending && k != .nmi) ∧
    SameBut [.flag .i, .flag .f, .pc, .nmiPending] s t := by
  intro t
  obtain ⟨hlow, hhigh⟩ := hvec
  have ht : t = ((s.putCc (maskOnEntry k s.cc)).putNmiPending (s.nmiPending && k != .nmi)).putPc
      (wordAt s.mem (vectorOf k)) := by
    rw [← vectorAddress_eq] at hlow hhigh ⊢
    exact (enterInterrupt_noStack k s).trans (loadVector_plain hlow hhigh)
  obtain ⟨-, hi, hf, -⟩ := maskOnEntry_flags k s.cc
  rw [ht]
  refine ⟨?flags, rfl, rfl, ?frame⟩
  case flags =>
    simp only [FlagsAre, List.forall_mem_cons]
    exact ⟨hi, hf, nofun⟩
  case frame =>
    exact ((putCc_maskOnEntry_frame k s).trans ((putNmiPending_frame _ _).trans (putPc_frame _ _))).mono (by decide)

/-- Settles O9, from its two clauses. -/
theorem fastFrameAndCwaiEntry : Obligations.FastFrameAndCwaiEntry :=
  ⟨fun _ => firqEntry, fun _ _ hlow hhigh => unstackedEntry ⟨hlow, hhigh⟩⟩

/-! ## Returns (R215, 42_ops_20_3F R1059) -/

/-- The registers a return pulls, as the mask of a pull: all of them with E = 1, CC and PC with E = 0. -/
def returnMask (cc : Byte) : Byte := if ccE cc then 0xFF#8 else 0x81#8

/-- A return is a pull. -/
theorem returnFromInterrupt_eq (s : State) :
    returnFromInterrupt s = pullRegs .s (returnMask (memRead8 s.s s).1) s := by
  unfold returnFromInterrupt returnMask
  have hcc : (pullInto8 .s State.putCc s).cc = (memRead8 s.s s).1 := rfl
  simp only [hcc]
  cases ccE (memRead8 s.s s).1
  · simp [pullRegs, when]
  · simp [pullRegs, when]

/-- A return with E = 1 pulls the entire frame. -/
theorem returnFromInterrupt_entire {s t : State} (he : ccE (memRead8 s.s s).1 = true)
    (ht : t = returnFromInterrupt s) :
    let l := (readUp 12 s.s s).1
    t.cc = byteOf l 0 ∧ t.a = byteOf l 1 ∧ t.b = byteOf l 2 ∧ t.dp = byteOf l 3 ∧ t.x = wordOf l 4 ∧
      t.y = wordOf l 6 ∧ t.u = wordOf l 8 ∧ t.pc = wordOf l 10 ∧ t.s = s.s + 12 ∧
      SameBut (ccParts ++ [.a, .b, .dp, .x, .y, .u, .s, .pc]) (readUp 12 s.s s).2 t := by
  intro l
  rw [returnFromInterrupt_eq, returnMask, if_pos he] at ht
  obtain ⟨⟨hsp, hsame⟩, hcc, ha, hb, hdp, hx, hy, hu, hpc, harmed⟩ := pullRegs_spec .s 0xFF#8 s
  rw [← ht] at hsp hsame hcc ha hb hdp hx hy hu hpc harmed
  have hlatch : t.nmiArmed = (readUp 12 s.s s).2.nmiArmed :=
    (harmed.trans (Bool.or_false _)).trans (readUp_frame 12 s.s s .nmiArmed (by decide)).symm
  have hdrop : SameBut ([.nmiArmed] ++ (ccParts ++ [.a, .b, .dp, .x, .y, .u, .s, .pc])) (readUp 12 s.s s).2 t :=
    hsame.mono (by decide)
  exact ⟨hcc, ha, hb, hdp, hx, hy, hu, hpc, hsp, hdrop.drop (List.forall_mem_singleton.mpr hlatch)⟩

/-- A return with E = 0 pulls CC and PC and leaves the other registers alone. -/
theorem returnFromInterrupt_fast {s t : State} (he : ccE (memRead8 s.s s).1 = false)
    (ht : t = returnFromInterrupt s) :
    let l := (readUp 3 s.s s).1
    t.cc = byteOf l 0 ∧ t.pc = wordOf l 1 ∧ t.s = s.s + 3 ∧
      SameBut (ccParts ++ [.s, .pc]) (readUp 3 s.s s).2 t := by
  intro l
  rw [returnFromInterrupt_eq, returnMask, if_neg (Bool.eq_false_iff.mp he)] at ht
  obtain ⟨⟨hsp, hsame⟩, hcc, ha, hb, hdp, hx, hy, hu, hpc, harmed⟩ := pullRegs_spec .s 0x81#8 s
  rw [← ht] at hsp hsame hcc ha hb hdp hx hy hu hpc harmed
  have hread := readUp_frame 3 s.s s
  have hdrop : SameBut ([.a, .b, .dp, .x, .y, .u, .nmiArmed] ++ (ccParts ++ [.s, .pc])) (readUp 3 s.s s).2 t :=
    hsame.mono (by decide)
  refine ⟨hcc, hpc, hsp, hdrop.drop ?_⟩
  simp only [List.forall_mem_cons]
  exact ⟨ha.trans (hread .a (by decide)).symm, hb.trans (hread .b (by decide)).symm,
    hdp.trans (hread .dp (by decide)).symm, hx.trans (hread .x (by decide)).symm,
    hy.trans (hread .y (by decide)).symm, hu.trans (hread .u (by decide)).symm,
    (harmed.trans (Bool.or_false _)).trans (hread .nmiArmed (by decide)).symm, nofun⟩

/-- Settles O54: the two returns. -/
theorem returnResult : Obligations.ReturnResult := by
  intro s cc size l
  obtain ⟨t, ht⟩ : ∃ t, t = returnFromInterrupt s := ⟨_, rfl⟩
  have hexec : exec .rti s = .next t := congrArg Host.Outcome.next ht.symm
  cases he : ccE cc with
  | true =>
    have hsize : size = 12 := if_pos he
    obtain ⟨hcc, ha, hb, hdp, hx, hy, hu, hpc, hsp, hsame⟩ := returnFromInterrupt_entire he ht
    simp only [l, hsize]
    exact ⟨t, hexec, hcc, hsp, hpc, fun _ => ⟨ha, hb, hdp, hx, hy, hu, writes_of (readUp_frame 12 s.s s) hsame⟩, nofun⟩
  | false =>
    have hsize : size = 3 := if_neg (Bool.eq_false_iff.mp he)
    obtain ⟨hcc, hpc, hsp, hsame⟩ := returnFromInterrupt_fast he ht
    simp only [l, hsize]
    exact ⟨t, hexec, hcc, hsp, hpc, nofun, fun _ => writes_of (readUp_frame 3 s.s s) hsame⟩

/-! ## A return after an entry -/

/-- What a return after an entry gives back: every register and every flag but E. -/
def restoredParts : List Part := flagParts [.f, .h, .i, .n, .z, .v, .c] ++ [.a, .b, .dp, .x, .y, .u, .s, .pc]

/-- The flags but E of a CC whose E alone was written. -/
theorem flags_same_of_putE {s t : State} {bit : Bool} (h : t.cc = putE bit s.cc) :
    ∀ p ∈ flagParts [.f, .h, .i, .n, .z, .v, .c], p.same s t := by
  intro p hp
  obtain ⟨k, hk, rfl⟩ := List.mem_map.mp hp
  have hne : ∀ k ∈ [Flag.f, .h, .i, .n, .z, .v, .c], Part.flag k ∉ [Part.flag .e] := by decide
  have hframe : SameBut [.flag .e] s (s.putCc t.cc) := h ▸ putCc_putE_frame bit s
  exact Part.same_trans (hframe _ (hne k hk)) (flag_same_of_cc rfl k)

/-- Every frame fits in the twelve bytes of the entire one. -/
theorem frameInRam_of_twelve {k : Interrupt} {s : State}
    (hram : ∀ a ∈ addressesUp 12 (s.s - 12), isRam s.params a = true) : FrameInRam k s := by
  have hlen : (frameBytes k s).length ≤ 12 := by rw [frameBytes_length]; split <;> decide
  intro a ha
  rw [mem_addresses_below (by omega)] at ha
  exact hram a ((mem_addresses_below (n := 12) (by decide) s.s a).mpr (by omega))

/-- The CC that a return pulls after an entry has E as the entry stacked it. -/
theorem pulledCc_entered {k : Interrupt} {s : State} (hwf : Memory.wf s.mem = true) (hram : FrameInRam k s) :
    (memRead8 (enterInterrupt k true s).s (enterInterrupt k true s)).1 = putE (k != .firq) s.cc := by
  have hread := congrArg (fun r => byteOf r.1 0) (readUp_entered hwf hram)
  cases k <;> exact hread

/-- `RTI` after FIRQ pulls the fast frame. -/
theorem return_after_firq {s : State} (hwf : Memory.wf s.mem = true) (hram : FrameInRam .firq s)
    (hvec : VectorPlain .firq s) :
    SameBut [.flag .e, .mem, .nmiPending] s (returnFromInterrupt (enterInterrupt .firq true s)) := by
  have hsp := (enterInterrupt_entered .firq s).sp
  have hpulled := pulledCc_entered hwf hram
  have hread := readUp_entered hwf hram
  obtain ⟨hin, -⟩ := enterInterrupt_ram_frame hram hvec
  generalize enterInterrupt .firq true s = t at *
  rw [show (frameBytes .firq s).length = 3 from rfl] at hread hsp
  obtain ⟨hcc, hpc, hs, hout⟩ := returnFromInterrupt_fast (s := t) (by rw [hpulled, ccE_putE]; rfl) rfl
  rw [hread] at hcc hpc hout
  have hall : SameBut (restoredParts ++ [.flag .e, .mem, .nmiPending]) s (returnFromInterrupt t) :=
    (hin.trans hout).mono (by decide)
  have keep : SameBut (ccParts ++ [.mem, .pc, .s, .nmiPending]) s (returnFromInterrupt t) :=
    (hin.trans hout).mono (by decide)
  refine hall.drop ?_
  rw [restoredParts, List.forall_mem_append]
  refine ⟨flags_same_of_putE (bit := false) hcc, ?_⟩
  simp only [List.forall_mem_cons]
  refine ⟨keep .a (by decide), keep .b (by decide), keep .dp (by decide), keep .x (by decide), keep .y (by decide),
    keep .u (by decide), ?_, hpc.trans (joinBytes_halves s.pc), nofun⟩
  exact hs.trans (by rw [hsp]; exact BitVec.sub_add_cancel _ _)

/-- `RTI` after any other entry pulls the entire frame. -/
theorem return_after_entire {k : Interrupt} {s : State} (hk : k ≠ .firq) (hwf : Memory.wf s.mem = true)
    (hram : FrameInRam k s) (hvec : VectorPlain k s) :
    SameBut [.flag .e, .mem, .nmiPending] s (returnFromInterrupt (enterInterrupt k true s)) := by
  have hframe : frameBytes k s = entireFrame (putE true s.cc) s := by
    cases k
    case firq => exact absurd rfl hk
    all_goals rfl
  have hbit : (k != .firq) = true := bne_iff_ne.mpr hk
  have hsp := (enterInterrupt_entered k s).sp
  have hpulled := pulledCc_entered hwf hram
  have hread := readUp_entered hwf hram
  obtain ⟨hin, -⟩ := enterInterrupt_ram_frame hram hvec
  generalize enterInterrupt k true s = t at *
  rw [hframe, entireFrame_length] at hread hsp
  obtain ⟨hcc, ha, hb, hdp, hx, hy, hu, hpc, hs, hout⟩ :=
    returnFromInterrupt_entire (s := t) (by rw [hpulled, ccE_putE, hbit]) rfl
  rw [hread] at hcc ha hb hdp hx hy hu hpc hout
  have hall : SameBut (restoredParts ++ [.flag .e, .mem, .nmiPending]) s (returnFromInterrupt t) :=
    (hin.trans hout).mono (by decide)
  refine hall.drop ?_
  rw [restoredParts, List.forall_mem_append]
  refine ⟨flags_same_of_putE (bit := true) hcc, ?_⟩
  simp only [List.forall_mem_cons]
  refine ⟨ha, hb, hdp, hx.trans (joinBytes_halves s.x), hy.trans (joinBytes_halves s.y), hu.trans (joinBytes_halves s.u),
    ?_, hpc.trans (joinBytes_halves s.pc), nofun⟩
  exact hs.trans (by rw [hsp]; exact BitVec.sub_add_cancel _ _)

/-- The E that a return leaves is the one it pulled. -/
theorem returnFromInterrupt_ccE (s : State) : ccE (returnFromInterrupt s).cc = ccE (memRead8 s.s s).1 := by
  cases he : ccE (memRead8 s.s s).1 with
  | true => exact (congrArg ccE (returnFromInterrupt_entire he rfl).1).trans he
  | false => exact (congrArg ccE (returnFromInterrupt_fast he rfl).1).trans he

/-- Settles O10: FIRQ apart, every entry stacks the entire frame. -/
theorem returnUndoesEntry : Obligations.ReturnUndoesEntry := by
  intro k s hwf hram hlow hhigh
  have hin : FrameInRam k s := frameInRam_of_twelve hram
  have he : ccE (returnFromInterrupt (enterInterrupt k true s)).cc = (k != .firq) := by
    rw [returnFromInterrupt_ccE, pulledCc_entered hwf hin, ccE_putE]
  refine ⟨_, rfl, List.forall_mem_singleton.mpr he, ?_⟩
  by_cases hk : k = .firq
  · subst hk
    exact return_after_firq hwf hin ⟨hlow, hhigh⟩
  · exact return_after_entire hk hwf hin ⟨hlow, hhigh⟩

end Sys2Proof.Machine

/-! # NMI and the invariant of a step (O15, O18, O20)

An instruction arms NMI exactly when it loads S, and never touches the latch of a pending edge: only an entry clears it. With
what O21 says of the wait state this gives the invariant. -/

namespace Sys2Proof.Machine

/-! ## The NMI latch and its arming (60_exceptions R206) -/

/-- From `s` to `t` NMI is armed if `arms`, never disarmed, and the latch keeps what it held. -/
structure ArmsNmi (arms : Bool) (s t : State) : Prop where
  armed : t.nmiArmed = (s.nmiArmed || arms)
  pending : t.nmiPending = s.nmiPending

/-- The pieces of NMI. -/
def nmiParts : List Part := [.nmiArmed, .nmiPending]

theorem ArmsNmi.of_eq {s t : State} (ha : t.nmiArmed = s.nmiArmed) (hp : t.nmiPending = s.nmiPending) :
    ArmsNmi false s t := ⟨ha.trans (Bool.or_false _).symm, hp⟩

theorem ArmsNmi.refl (s : State) : ArmsNmi false s s := .of_eq rfl rfl

/-- A frame that lists no piece of NMI. -/
theorem ArmsNmi.of_frame {l : List Part} {s t : State} (h : SameBut l s t) (hl : ∀ p ∈ nmiParts, p ∉ l) :
    ArmsNmi false s t :=
  .of_eq (h .nmiArmed (hl _ (by decide))) (h .nmiPending (hl _ (by decide)))

theorem ArmsNmi.trans {a b : Bool} {s t u : State} (h : ArmsNmi a s t) (g : ArmsNmi b t u) : ArmsNmi (a || b) s u :=
  ⟨by rw [g.armed, h.armed, Bool.or_assoc], g.pending.trans h.pending⟩

/-- First something that leaves NMI alone. -/
theorem ArmsNmi.after {b : Bool} {s t u : State} (g : ArmsNmi b t u) (h : ArmsNmi false s t) : ArmsNmi b s u := h.trans g

/-- Then something that leaves NMI alone. -/
theorem ArmsNmi.andThen {a : Bool} {s t u : State} (h : ArmsNmi a s t) (g : ArmsNmi false t u) : ArmsNmi a s u :=
  Bool.or_false a ▸ h.trans g

/-! ### Operands and results -/

theorem MemMode.touches_no_nmi (m : MemMode) : ∀ p ∈ nmiParts, p ∉ m.touches := by
  rcases m.touches_cases with h | ⟨r, h⟩ <;> rw [h]
  · decide
  · cases r <;> decide

theorem MemMode.address_nmi (m : MemMode) (s : State) : ArmsNmi false s (m.address s).2 :=
  .of_frame (m.address_frame s) m.touches_no_nmi

theorem Source8.read_nmi (src : Source8) (s : State) : ArmsNmi false s (src.read s).2 := by
  cases src with
  | imm ii => exact .refl s
  | mem m => exact .of_frame (operand8_frame m s) m.touches_no_nmi

theorem Source16.read_nmi (src : Source16) (s : State) : ArmsNmi false s (src.read s).2 := by
  cases src with
  | imm v => exact .refl s
  | mem m => exact .of_frame (operand16_frame m s) m.touches_no_nmi

theorem Place.operand_nmi (p : Place) (s : State) : ArmsNmi false s (p.operand s).2 := by
  cases p with
  | acc r => exact .refl s
  | mem m => exact .of_frame (operand8_frame m s) m.touches_no_nmi

theorem putFlags_nmi (f : FlagEffects) (s : State) : ArmsNmi false s (putFlags f s) :=
  .of_eq (putFlags_nmiArmed f s) (putFlags_nmiPending f s)

theorem writeAcc_nmi (r : Acc) (v : Byte) (s : State) : ArmsNmi false s (writeAcc r v s) :=
  .of_frame (writeAcc_frame r v s) (by cases r <;> decide)

theorem memWrite8_nmi (a : Word) (v : Byte) (s : State) : ArmsNmi false s (memWrite8 a v s) :=
  .of_frame (memWrite8_frame a v s) (by decide)

theorem memWrite16_nmi (a v : Word) (s : State) : ArmsNmi false s (memWrite16 a v s) :=
  .of_frame (memWrite16_frame a v s) (by decide)

theorem Place.leave_nmi (p : Place) (result : Byte) (s : State) : ArmsNmi false s (p.leave result s) := by
  cases p with
  | acc r => exact writeAcc_nmi r result s
  | mem m => exact (ArmsNmi.of_frame (operand8_frame m s) m.touches_no_nmi).andThen (memWrite8_nmi _ _ _)

theorem operateAcc_nmi (f : Binary8) (r : Acc) (m : Byte × State) : ArmsNmi false m.2 (operateAcc f r m) :=
  (writeAcc_nmi r _ m.2).andThen (putFlags_nmi _ _)

/-- A load of a 16-bit register arms NMI if the register is S. -/
theorem loadReg16_nmi (r : Reg16) (v : Word) (s : State) : ArmsNmi (r == .s) s (loadReg16 r v s) := by
  cases r with
  | s => exact ⟨(Bool.or_true _).symm, rfl⟩
  | d | x | y | u => exact .of_eq rfl rfl

theorem load16_nmi (r : Reg16) (m : Word × State) : ArmsNmi (r == .s) m.2 (load16 r m) :=
  (loadReg16_nmi r m.1 m.2).andThen (putFlags_nmi _ _)

theorem operateD_nmi (f : Word → Word → Word × FlagEffects) (m : Word × State) : ArmsNmi false m.2 (operateD f m) :=
  (loadReg16_nmi .d _ m.2).andThen (putFlags_nmi _ _)

theorem leaState_nmi (r : IdxReg) (e : Word × State) : ArmsNmi (r == .s) e.2 (leaState r e) := by
  cases r with
  | x => exact (loadReg16_nmi .x e.1 e.2).andThen (putFlags_nmi _ _)
  | y => exact (loadReg16_nmi .y e.1 e.2).andThen (putFlags_nmi _ _)
  | u => exact loadReg16_nmi .u e.1 e.2
  | s => exact loadReg16_nmi .s e.1 e.2

/-! ### Control transfer, stacks and register transfers -/

theorem putPc_nmi (v : Word) (s : State) : ArmsNmi false s (s.putPc v) := .of_eq rfl rfl

theorem branch_nmi (c : Cond) (target : Word) (s : State) : ArmsNmi false s (branch c target s) := by
  unfold branch
  split
  · exact putPc_nmi _ s
  · exact .refl s

theorem pushBytes_nmi (k : StackReg) (l : List Byte) (s : State) : ArmsNmi false s (pushBytes k l s) :=
  .of_frame (pushBytes_frame k l s) (by cases k <;> decide)

theorem pushRegs_nmi (k : StackReg) (mask : Byte) (s : State) : ArmsNmi false s (pushRegs k mask s) := by
  rw [pushRegs_eq]
  exact pushBytes_nmi k _ s

theorem callTo_nmi (e : Word × State) : ArmsNmi false e.2 (callTo e) :=
  (pushBytes_nmi .s (pushedWord e.2.pc) e.2).andThen (putPc_nmi e.1 _)

/-- A pull arms NMI if it pulls S, which only `PULU` does. -/
theorem pullRegs_nmi (k : StackReg) (mask : Byte) (s : State) :
    ArmsNmi (k == .u && mask.getLsbD 6) s (pullRegs k mask s) := by
  obtain ⟨-, -, -, -, -, -, -, -, -, harmed⟩ := pullRegs_spec k mask s
  exact ⟨harmed, pullRegs_frame k mask s .nmiPending (by decide)⟩

theorem writeCode_nmi (r : RegCode) (v : Word) (s : State) : ArmsNmi (r == .s) s (writeCode r v s) :=
  ⟨writeCode_nmiArmed r v s, writeCode_frame r v s .nmiPending (by cases r <;> decide)⟩

theorem exchangeRegs_nmi {r1 r2 : RegCode} (hw : isWide r1 = isWide r2) (s : State) :
    ArmsNmi (r1 == .s || r2 == .s) s (exchangeRegs r1 r2 s) := by
  rw [exchangeRegs_eq hw]
  exact (writeCode_nmi r1 _ s).trans (writeCode_nmi r2 _ _)

theorem transferReg_nmi {r1 r2 : RegCode} (hw : isWide r1 = isWide r2) (s : State) :
    ArmsNmi (r2 == .s) s (transferReg r1 r2 s) := by
  rw [transferReg_eq hw]
  exact writeCode_nmi r2 _ s

theorem clearAndWait_nmi (ii : Byte) (s : State) : ArmsNmi false s (clearAndWait ii s) := by
  have hcc : ArmsNmi false s (s.putCc (putE true (s.cc &&& ii))) := .of_frame (putCc_frame _ s) (by decide)
  exact (hcc.andThen (pushRegs_nmi .s 0xFF#8 _)).andThen (.of_frame (putWait_frame .cwai _) (by decide))

/-! ### Entries and returns -/

theorem enterInterrupt_stack_frame (k : Interrupt) (s : State) :
    SameBut ([.mem, .via, .draws, .pc] ++ entryParts) s (enterInterrupt k true s) :=
  ((storeDown_frame _ _ s).trans ((memRead16_frame _ _).trans (enterInterrupt_entered k s).same)).mono (by decide)

theorem enterInterrupt_noStack_frame (k : Interrupt) (s : State) :
    SameBut ([.mem, .via, .draws, .pc] ++ entryParts) s (enterInterrupt k false s) := by
  rw [enterInterrupt_noStack]
  exact ((putCc_maskOnEntry_frame k s).trans ((putNmiPending_frame _ _).trans (loadVector_frame _ _))).mono (by decide)

/-- Whether it stacks or not, an entry changes no line, not the wait state and not the arming of NMI. -/
theorem enterInterrupt_frame (k : Interrupt) (stack : Bool) (s : State) :
    SameBut ([.mem, .via, .draws, .pc] ++ entryParts) s (enterInterrupt k stack s) := by
  cases stack with
  | true => exact enterInterrupt_stack_frame k s
  | false => exact enterInterrupt_noStack_frame k s

/-- NMI clears its latch; no other entry touches it. -/
theorem enterInterrupt_nmiPending (k : Interrupt) (stack : Bool) (s : State) :
    (enterInterrupt k stack s).nmiPending = (s.nmiPending && k != .nmi) := by
  cases stack with
  | true => exact (enterInterrupt_entered k s).nmiPending
  | false =>
    rw [enterInterrupt_noStack]
    exact loadVector_frame _ _ .nmiPending (by decide)

theorem swi_nmi {k : Interrupt} {i : Instr} (h : swiInstr k = some i) (s : State) :
    ArmsNmi false s (enterInterrupt k true s) := by
  have hk : (k != .nmi) = true := by cases k <;> cases h <;> rfl
  refine .of_eq (enterInterrupt_frame k true s .nmiArmed (by decide)) ?_
  rw [enterInterrupt_nmiPending, hk, Bool.and_true]

theorem returnFromInterrupt_nmi (s : State) : ArmsNmi false s (returnFromInterrupt s) := by
  rw [returnFromInterrupt_eq]
  exact pullRegs_nmi .s _ s

/-! ### Which instructions arm NMI, by shape -/

theorem armsNmi_unary (op : UnaryOp) (p : Place) : armsNmi (unaryInstr op p) = false := by
  cases p with
  | acc r => cases r <;> cases op <;> rfl
  | mem m => cases m <;> cases op <;> rfl

theorem armsNmi_binary (op : BinaryOp) (r : Acc) (src : Source8) : armsNmi (binaryInstr op r src) = false := by
  cases src with
  | imm ii => cases r <;> cases op <;> rfl
  | mem m => cases m <;> cases r <;> cases op <;> rfl

theorem armsNmi_load8 (r : Acc) (src : Source8) : armsNmi (load8Instr r src) = false := by
  cases src with
  | imm ii => cases r <;> rfl
  | mem m => cases m <;> cases r <;> rfl

theorem armsNmi_store8 (r : Acc) (m : MemMode) : armsNmi (store8Instr r m) = false := by
  cases m <;> cases r <;> rfl

theorem armsNmi_addd (src : Source16) : armsNmi (adddInstr src) = false := by
  cases src with
  | imm v => rfl
  | mem m => cases m <;> rfl

theorem armsNmi_subd (src : Source16) : armsNmi (subdInstr src) = false := by
  cases src with
  | imm v => rfl
  | mem m => cases m <;> rfl

theorem armsNmi_cmp16 (r : Reg16) (src : Source16) : armsNmi (cmp16Instr r src) = false := by
  cases src with
  | imm v => cases r <;> rfl
  | mem m => cases r <;> cases m <;> rfl

theorem armsNmi_load16 (r : Reg16) (src : Source16) : armsNmi (load16Instr r src) = (r == .s) := by
  cases src with
  | imm v => cases r <;> rfl
  | mem m => cases r <;> cases m <;> rfl

theorem armsNmi_store16 (r : Reg16) (m : MemMode) : armsNmi (store16Instr r m) = false := by
  cases m <;> cases r <;> rfl

theorem armsNmi_lea (r : IdxReg) (ix : Indexed) : armsNmi (leaInstr r ix) = (r == .s) := by
  cases r <;> rfl

theorem armsNmi_branch (c : Cond) (rr : Byte) : armsNmi (branchInstr c rr) = false := by
  cases c <;> rfl

theorem armsNmi_longBranch (c : Cond) (disp : Word) : armsNmi (longBranchInstr c disp) = false := by
  cases c <;> rfl

theorem armsNmi_jmp (m : MemMode) : armsNmi (jmpInstr m) = false := by
  cases m <;> rfl

theorem armsNmi_jsr (m : MemMode) : armsNmi (jsrInstr m) = false := by
  cases m <;> rfl

theorem armsNmi_push (k : StackReg) (mask : Byte) : armsNmi (pushInstr k mask) = false := by
  cases k <;> rfl

theorem armsNmi_pull (k : StackReg) (mask : Byte) : armsNmi (pullInstr k mask) = (k == .u && mask.getLsbD 6) := by
  cases k <;> rfl

theorem armsNmi_swi {k : Interrupt} {i : Instr} (h : swiInstr k = some i) : armsNmi i = false := by
  cases k <;> cases h <;> rfl

theorem armsNmi_nop {i : Instr} (h : i ∈ nopInstrs) : armsNmi i = false :=
  (by decide : ∀ i ∈ nopInstrs, armsNmi i = false) i h

/-! ### Every instruction -/

/-- An instruction arms NMI as `armsNmi` lists, and leaves a pending edge pending. -/
theorem exec_nmi {i : Instr} {s t : State} (h : exec i s = .next t) : ArmsNmi (armsNmi i) s t := by
  induction i using instr_cases with
  | unary op p =>
    rw [armsNmi_unary]
    by_cases e : op = .tst
    · subst e
      rw [next_eq h (exec_test p s)]
      exact (p.operand_nmi s).andThen (putFlags_nmi _ _)
    · rw [next_eq h (exec_unary e p s), modifyPlace_eq]
      exact (p.leave_nmi _ s).andThen (putFlags_nmi _ _)
  | binary op r src =>
    rw [armsNmi_binary]
    by_cases e : op = .cmp ∨ op = .bit
    · rw [next_eq h (exec_compare e r src s)]
      exact (src.read_nmi s).andThen (putFlags_nmi _ _)
    · rw [next_eq h (exec_binary (not_or.mp e) r src s)]
      exact (src.read_nmi s).andThen (operateAcc_nmi _ _ _)
  | load8 r src =>
    rw [armsNmi_load8, next_eq h (exec_load8 r src s)]
    exact (src.read_nmi s).andThen ((writeAcc_nmi r _ _).andThen (putFlags_nmi _ _))
  | store8 r m =>
    rw [armsNmi_store8, next_eq h (exec_store8 r m s)]
    exact (m.address_nmi s).andThen ((putFlags_nmi _ _).andThen (memWrite8_nmi _ _ _))
  | addd src =>
    rw [armsNmi_addd, next_eq h (exec_addd src s)]
    exact (src.read_nmi s).andThen (operateD_nmi _ _)
  | subd src =>
    rw [armsNmi_subd, next_eq h (exec_subd src s)]
    exact (src.read_nmi s).andThen (operateD_nmi _ _)
  | cmp16 r src =>
    rw [armsNmi_cmp16, next_eq h (exec_cmp16 r src s)]
    exact (src.read_nmi s).andThen (putFlags_nmi _ _)
  | load16 r src =>
    rw [armsNmi_load16, next_eq h (exec_load16 r src s)]
    exact (load16_nmi r _).after (src.read_nmi s)
  | store16 r m =>
    rw [armsNmi_store16, next_eq h (exec_store16 r m s)]
    exact (m.address_nmi s).andThen ((putFlags_nmi _ _).andThen (memWrite16_nmi _ _ _))
  | lea r ix =>
    rw [armsNmi_lea, next_eq h (exec_lea r ix s)]
    exact (leaState_nmi r _).after (MemMode.address_nmi (.indexed ix) s)
  | aba =>
    rw [next_eq h (u := operateAcc addOp .a (s.b, s)) rfl]
    exact operateAcc_nmi addOp .a (s.b, s)
  | daa =>
    rw [next_eq h (u := decimalAdjust s) rfl]
    exact (writeAcc_nmi .a _ s).andThen (putFlags_nmi _ _)
  | mul =>
    rw [next_eq h (u := multiply s) rfl]
    exact (loadReg16_nmi .d _ s).andThen (putFlags_nmi _ _)
  | sex =>
    rw [next_eq h (u := signExtendB s) rfl]
    exact (writeAcc_nmi .a _ s).andThen (putFlags_nmi _ _)
  | abx =>
    rw [next_eq h (u := s.putX (s.x + zeroExtend8 s.b)) rfl]
    exact loadReg16_nmi .x _ s
  | branch c rr =>
    rw [armsNmi_branch, next_eq h (exec_branch c rr s)]
    exact branch_nmi _ _ s
  | longBranch c disp =>
    rw [armsNmi_longBranch, next_eq h (exec_longBranch c disp s)]
    exact branch_nmi _ _ s
  | jmp m =>
    rw [armsNmi_jmp, next_eq h (exec_jmp m s)]
    exact (m.address_nmi s).andThen (putPc_nmi _ _)
  | jsr m =>
    rw [armsNmi_jsr, next_eq h (exec_jsr m s)]
    exact (m.address_nmi s).andThen (callTo_nmi _)
  | bsr rr =>
    rw [next_eq h (u := callTo (relTarget8 rr s, s)) rfl]
    exact callTo_nmi (relTarget8 rr s, s)
  | lbsr disp =>
    rw [next_eq h (u := callTo (relTarget16 disp s, s)) rfl]
    exact callTo_nmi (relTarget16 disp s, s)
  | rts =>
    rw [next_eq h (u := pullInto16 .s State.putPc s) rfl]
    exact (ArmsNmi.of_frame (pull16_frame .s s) (by decide)).andThen (putPc_nmi _ _)
  | push k mask =>
    rw [armsNmi_push, next_eq h (exec_push k mask s)]
    exact pushRegs_nmi k mask s
  | pull k mask =>
    rw [armsNmi_pull, next_eq h (exec_pull k mask s)]
    exact pullRegs_nmi k mask s
  | exg r1 r2 =>
    rw [exec_exg] at h
    split at h
    · cases h
      exact exchangeRegs_nmi (beq_iff_eq.mp ‹_›) s
    · cases h
  | tfr r1 r2 =>
    rw [exec_tfr] at h
    split at h
    · cases h
      exact transferReg_nmi (beq_iff_eq.mp ‹_›) s
    · cases h
  | orcc ii =>
    rw [next_eq h (u := s.putCc (s.cc ||| ii)) rfl]
    exact .of_eq rfl rfl
  | andcc ii =>
    rw [next_eq h (u := s.putCc (s.cc &&& ii)) rfl]
    exact .of_eq rfl rfl
  | sev =>
    rw [next_eq h (u := s.putCc (putV true s.cc)) rfl]
    exact .of_eq rfl rfl
  | sync =>
    rw [next_eq h (u := s.putWait .sync) rfl]
    exact .of_eq rfl rfl
  | wai =>
    rw [next_eq h (u := s.putWait .wai) rfl]
    exact .of_eq rfl rfl
  | cwai ii =>
    rw [next_eq h (u := clearAndWait ii s) rfl]
    exact clearAndWait_nmi ii s
  | swi k i hk =>
    rw [armsNmi_swi hk, next_eq h (exec_swi hk s)]
    exact swi_nmi hk s
  | rti =>
    rw [next_eq h (u := returnFromInterrupt s) rfl]
    exact returnFromInterrupt_nmi s
  | nop i hi =>
    rw [armsNmi_nop hi, next_eq h (exec_nop hi s)]
    exact .refl s
  | unassigned i hi =>
    rcases exec_unassigned hi s with ⟨op, e⟩ | ⟨p, op, e⟩ <;> rw [e] at h <;> cases h

/-- Settles O20, from what each shape does to NMI. -/
theorem onlyLoadsOfSArmNmi : Obligations.OnlyLoadsOfSArmNmi :=
  fun _ _ _ h => (exec_nmi h).armed

/-- Settles O18: `exec_completes`, shape by shape. -/
theorem assignedInstructionsComplete : Obligations.AssignedInstructionsComplete :=
  fun _ s hw hu => exec_completes hw hu s

/-! ## The invariant (60_exceptions R206, R218, R258) -/

/-- The part of the invariant that `Keeps` does not cover: a pending NMI was armed, and `CWAI` waits with E set. -/
structure Guarded (s : State) : Prop where
  nmi : s.nmiPending = true → s.nmiArmed = true
  entire : s.wait = .cwai → ccE s.cc = true

theorem Guarded.of_eq {s t : State} (h : Guarded s) (ha : t.nmiArmed = s.nmiArmed) (hp : t.nmiPending = s.nmiPending)
    (hw : t.wait = s.wait) (hcc : t.cc = s.cc) : Guarded t :=
  ⟨by rw [ha, hp]; exact h.nmi, by rw [hw, hcc]; exact h.entire⟩

theorem Guarded.of_frame {l : List Part} {s t : State} (h : Guarded s) (hst : SameBut l s t)
    (hl : ∀ p ∈ [Part.nmiArmed, .nmiPending, .wait, .flag .e], p ∉ l) : Guarded t :=
  ⟨by rw [hst .nmiArmed (hl _ (by decide)), hst .nmiPending (hl _ (by decide))]; exact h.nmi,
    by
      rw [hst .wait (hl _ (by decide)), show ccE t.cc = ccE s.cc from hst (.flag .e) (hl _ (by decide))]
      exact h.entire⟩

/-! ### The host's events -/

/-- After a reset no NMI is pending and the processor runs (70_reset_and_hazards R280). -/
theorem resetSequence_guarded (s : State) : Guarded (resetSequence s) := by
  have hpending : (resetSequence s).nmiPending = false := loadVector_frame resetVector _ .nmiPending (by decide)
  have hwait : (resetSequence s).wait = .running := loadVector_frame resetVector _ .wait (by decide)
  exact ⟨fun h => absurd h (by simp [hpending]), fun h => absurd h (by simp [hwait])⟩

theorem putVia_guarded {s : State} (h : Guarded s) (v : Via) : Guarded (s.putVia v) := h.of_eq rfl rfl rfl rfl

theorem applyEvent_guarded (e : HostEvent) {s : State} (h : Guarded s) : Guarded (applyEvent e s) := by
  cases e with
  | nmiEdge =>
    unfold applyEvent
    simp only
    split
    · exact ⟨fun _ => ‹_›, h.entire⟩
    · exact h
  | reset level =>
    unfold applyEvent
    simp only
    split
    · exact resetSequence_guarded _
    · exact h.of_eq rfl rfl rfl rfl
  | firq level | irqExt level => exact h.of_eq rfl rfl rfl rfl
  | portA levels | portB levels => exact putVia_guarded h _
  | ca1 level | ca2 level | cb1 level | cb2 level => exact putVia_guarded h _

theorem applyEvents_guarded (l : List HostEvent) {s : State} (h : Guarded s) : Guarded (applyEvents l s) := by
  induction l generalizing s with
  | nil => exact h
  | cons e l ih => exact ih (applyEvent_guarded e h)

theorem takeInputs_guarded {s : State} (h : Guarded s) : Guarded (takeInputs s) := by
  unfold takeInputs
  split
  · exact h
  · exact applyEvents_guarded _ (h.of_eq rfl rfl rfl rfl)

/-! ### The sampling point -/

theorem wakeFromSync_guarded {s : State} (h : Guarded s) : Guarded (wakeFromSync s) := by
  unfold wakeFromSync
  split
  · exact ⟨h.nmi, nofun⟩
  · exact h

/-- Fetching reads bytes and moves PC. -/
theorem fetchFrom_frame (n : Nat) (bytes : List Byte) (s : State) :
    SameBut [.via, .draws, .pc] s (fetchFrom n bytes s).2 := by
  induction n generalizing bytes s with
  | zero => exact SameBut.refl _ _
  | succ n ih =>
    unfold fetchFrom
    split
    · exact ((memRead8_frame s.pc s).trans ((putPc_frame _ _).trans (ih _ _))).mono (by decide)
    · exact SameBut.refl _ _
    · exact SameBut.refl _ _

/-- An instruction executes only in a running machine. -/
theorem wait_of_execute {s : State} (h : activity s = .execute) : s.wait = .running := by
  unfold activity at h
  split at h
  · assumption
  · cases h
  · split at h <;> cases h
  · split at h <;> cases h

/-- The instruction that starts the wait of `CWAI` has set E. -/
theorem exec_cwai_entire {i : Instr} {s t : State} (h : exec i s = .next t) (hs : s.wait ≠ .cwai)
    (ht : t.wait = .cwai) : ccE t.cc = true := by
  obtain rfl | rfl | ⟨ii, rfl⟩ := (exec_disciplined h).wait (ht ▸ hs.symm)
  · cases h
    cases ht
  · cases h
    cases ht
  · rw [next_eq h (u := clearAndWait ii s) rfl, clearAndWait_eq]
    exact ccE_putE true (s.cc &&& ii)

theorem enterInterrupt_guarded (k : Interrupt) (stack : Bool) {s : State} (h : Guarded s) :
    Guarded (enterInterrupt k stack (s.putWait .running)) := by
  have hframe := enterInterrupt_frame k stack (s.putWait .running)
  have harmed := hframe .nmiArmed (by decide)
  have hwait := hframe .wait (by decide)
  refine ⟨fun hp => ?_, fun hw => ?_⟩
  · rw [enterInterrupt_nmiPending, Bool.and_eq_true] at hp
    exact harmed.trans (h.nmi hp.1)
  · cases hw.symm.trans hwait

theorem exec_guarded {i : Instr} {s t : State} (h : Guarded s) (hrun : s.wait = .running) (hexec : exec i s = .next t) :
    Guarded t := by
  have hnmi := exec_nmi hexec
  refine ⟨fun hp => ?_, exec_cwai_entire hexec (by simp [hrun])⟩
  rw [hnmi.armed, h.nmi (hnmi.pending ▸ hp), Bool.true_or]

theorem perform_guarded {s t : State} (h : Guarded s) (hst : perform s = .next t) : Guarded t := by
  rcases perform_cases hst with ⟨k, stack, -, rfl⟩ | ⟨i, rest, hact, -, hexec⟩ | ⟨-, rfl⟩
  · exact enterInterrupt_guarded k stack h
  · have hfetch : SameBut [.via, .draws, .pc] s (fetchInstruction s).2 := fetchFrom_frame 5 [] s
    exact exec_guarded (h.of_frame hfetch (by decide))
      ((hfetch .wait (by decide)).trans (wait_of_execute hact)) hexec
  · exact h

/-! ### A whole step -/

theorem step_guarded {s t : State} (h : Guarded s) (hst : step s = .next t) : Guarded t := by
  have hin := takeInputs_guarded h
  rcases step_cases hst with ⟨-, rfl⟩ | ⟨-, u, hu, rfl⟩
  · exact hin.of_eq rfl rfl rfl rfl
  · exact (perform_guarded (wakeFromSync_guarded hin) hu).of_eq rfl rfl rfl rfl

/-- Settles O15: memory and the shift count are among what `Keeps` covers, the rest is `Guarded`. -/
theorem stepKeepsInv : Obligations.StepKeepsInv := by
  intro s t hs hst
  obtain ⟨hmem, hcount, hnmi, hentire⟩ := hs
  obtain ⟨-, hwf, -, hshift⟩ := step_keeps hst
  obtain ⟨hnmi', hentire'⟩ := step_guarded ⟨hnmi, hentire⟩ hst
  exact ⟨hwf hmem, hshift hcount, hnmi', hentire'⟩

end Sys2Proof.Machine

/-! # The parts of a step: events, requests, waits, instructions (O5, O6, O7, O60) -/

namespace Sys2Proof.Machine

/-! ## The sampling point (60_exceptions R204, R205, R217 to R219, R226) -/

/-- With RESET released a step is the sampling point, then the end of the step. -/
theorem step_released {s : State} (h : (takeInputs s).resetLine = false) :
    step s = finishOutcome (perform (wakeFromSync (takeInputs s))) := by
  unfold step stepOnce
  exact if_neg (Bool.eq_false_iff.mp h)

/-- The requests by priority, each with its mask. -/
theorem requestedInterrupt_eq (s : State) : requestedInterrupt s =
    if s.nmiPending then some .nmi
    else if s.firqLine && !ccF s.cc then some .firq
    else if irqLine s && !ccI s.cc then some .irq
    else none := by
  simp only [requestedInterrupt, Bool.and_comm]

/-- Outside `SYNC` a request is taken, with stacking unless `CWAI` has stacked. -/
theorem activity_requested {s : State} {k : Interrupt} (hs : s.wait ≠ .sync) (h : requestedInterrupt s = some k) :
    activity s = .interrupt k (decide (s.wait ≠ .cwai)) := by
  cases hw : s.wait with
  | running | wai | cwai => simp [activity, hw, h]
  | sync => exact absurd hw hs

/-- A machine stopped by `CWAI` or `WAI` waits on while nothing is requested. -/
theorem activity_idle {s : State} (hs : s.wait = .cwai ∨ s.wait = .wai) (h : requestedInterrupt s = none) :
    activity s = .idle := by
  rcases hs with hw | hw <;> simp [activity, hw, h]

theorem activity_execute {s : State} (hs : s.wait = .running) (h : requestedInterrupt s = none) :
    activity s = .execute := by
  simp [activity, hs, h]

theorem wakeFromSync_of_ne {s : State} (h : s.wait ≠ .sync) : wakeFromSync s = s := by
  simp [wakeFromSync, h]

theorem step_interrupt {s : State} {k : Interrupt} {stack : Bool} (h : (takeInputs s).resetLine = false)
    (hact : activity (wakeFromSync (takeInputs s)) = .interrupt k stack) :
    step s = .next (finishStep (enterInterrupt k stack ((wakeFromSync (takeInputs s)).putWait .running))) := by
  rw [step_released h, perform, hact]
  rfl

theorem step_idle {s : State} (h : (takeInputs s).resetLine = false)
    (hact : activity (wakeFromSync (takeInputs s)) = .idle) :
    step s = .next (finishStep (wakeFromSync (takeInputs s))) := by
  rw [step_released h, perform, hact]
  rfl

theorem finishStep_frame (s : State) : SameBut [.via, .steps] s (finishStep s) := by
  rw [sameBut_iff]; simp [finishStep]

/-- Settles O6: the request by priority, taken as the wait state says. -/
theorem highestRequestTaken : Obligations.HighestRequestTaken := by
  intro s hreset hsync q stack firq irq
  have taken {k : Interrupt} (h : requestedInterrupt q = some k) :
      step s = .next (finishStep (enterInterrupt k stack (q.putWait .running))) :=
    step_interrupt hreset (activity_requested hsync h)
  have hreq : requestedInterrupt q =
      if q.nmiPending then some .nmi else if firq then some .firq else if irq then some .irq else none :=
    requestedInterrupt_eq q
  refine ⟨fun hn => taken ?_, fun hn hf => taken ?_, fun hn hf hi => taken ?_⟩
  · simp [hreq, hn]
  · simp [hreq, hn, hf]
  · simp [hreq, hn, hf, hi]

/-- Settles O7: nothing is requested, or no line is asserted, or the line wakes the machine. -/
theorem waitingChangesNothing : Obligations.WaitingChangesNothing := by
  intro s hreset q irq
  refine ⟨fun hw hn hf hi => ?masked, fun hw hn hf hi => ?sync, fun hw hline => ?wake⟩
  case masked =>
    have hreq : requestedInterrupt q = none := by
      rw [requestedInterrupt_eq, hn, hf, show (irqLine q && !ccI q.cc) = false from hi]
      rfl
    have hwake : wakeFromSync q = q := wakeFromSync_of_ne (by rcases hw with hw | hw <;> simp [hw])
    have hstep := step_idle (s := s) hreset (hwake.symm ▸ activity_idle hw hreq)
    exact ⟨_, hwake ▸ hstep, finishStep_frame q⟩
  case sync =>
    have hwake : wakeFromSync q = q := by
      simp [wakeFromSync, hn, hf, show irqLine q = false from hi]
    have hact : activity (wakeFromSync q) = .idle := by simp [hwake, activity, hw]
    exact ⟨_, hwake ▸ step_idle hreset hact, finishStep_frame q⟩
  case wake =>
    have hwake : wakeFromSync q = q.putWait .running := by
      rw [wakeFromSync, if_pos]
      exact Bool.and_eq_true_iff.mpr ⟨decide_eq_true hw, hline⟩
    rw [hwake]
    exact ⟨rfl, putWait_frame .running q⟩

/-! ## One instruction (30_encoding R80, R81, 60_exceptions R262) -/

/-- Settles O5: the fetch answers the instruction and moves PC alone, and the end of the step is `finishStep`. -/
theorem stepRunsInstruction : Obligations.StepRunsInstruction := by
  intro s bytes i hreset hrun hreq hbytes hdecode ready start
  have hfetch : fetchInstruction ready = (.ok i [], start) := fetchInstruction_bytes hbytes hdecode
  have hact : activity ready = .execute := activity_execute hrun hreq
  have hperform : perform ready = exec i start := by
    simp only [perform, hact, runInstruction, hfetch]
  have hstep : step s = finishOutcome (exec i start) := by
    rw [step_released hreset]
    exact congrArg finishOutcome hperform
  refine ⟨hstep, fun t ht => ?_⟩
  rw [hstep, ht]
  rfl

/-! ## The host's events on the lines (60_exceptions R206, R253, 70_reset_and_hazards R289) -/

/-- An edge on NMI is latched if NMI is armed. -/
theorem applyEvent_nmiEdge (s : State) :
    applyEvent .nmiEdge s = s.putNmiPending (s.nmiPending || s.nmiArmed) := by
  unfold applyEvent
  cases h : s.nmiArmed with
  | true => rw [Bool.or_true]; rfl
  | false => rw [Bool.or_false]; rfl

/-- Settles O60, one event a clause. -/
theorem linesFollowTheHost : Obligations.LinesFollowTheHost := by
  intro level s
  refine ⟨?nmi, ⟨rfl, ?firq⟩, ⟨rfl, ?irq⟩⟩
  case nmi =>
    rw [applyEvent_nmiEdge]
    exact ⟨rfl, putNmiPending_frame _ s⟩
  case firq => rw [sameBut_iff]; simp [applyEvent]
  case irq => rw [sameBut_iff]; simp [applyEvent]

end Sys2Proof.Machine

/-! # The VIA: interrupt registers and ports (O55, O56)

The seven flags of IFR are numbered (`ViaFlag.bit`), and raising or clearing one is stated bit by bit once. -/

namespace Sys2Proof.Machine

/-! ## The bits of IFR (60_exceptions R250) -/

/-- The number of a flag in IFR and IER. -/
def ViaFlag.bit : ViaFlag → Nat
  | .ca2 => 0
  | .ca1 => 1
  | .shift => 2
  | .cb2 => 3
  | .cb1 => 4
  | .timer2 => 5
  | .timer1 => 6

theorem ViaFlag.bit_lt (f : ViaFlag) : f.bit < 7 := by cases f <;> decide

theorem viaFlagMask_getLsbD (f : ViaFlag) {n : Nat} (hn : n < 7) : (viaFlagMask f).getLsbD n = (n == f.bit) := by
  revert n
  cases f <;> decide

theorem viaRaise_bit (f : ViaFlag) (v : Via) {n : Nat} (hn : n < 7) :
    (viaRaise f v).ifr.getLsbD n = (v.ifr.getLsbD n || n == f.bit) := by
  simp only [viaRaise, BitVec.getLsbD_or, viaFlagMask_getLsbD f hn]

theorem viaClear_bit (f : ViaFlag) (v : Via) {n : Nat} (hn : n < 7) :
    (viaClear f v).ifr.getLsbD n = (v.ifr.getLsbD n && n != f.bit) := by
  simp only [viaClear, BitVec.getLsbD_and, BitVec.getLsbD_not, viaFlagMask_getLsbD f hn, hn, decide_true, Bool.true_and,
    bne]

theorem viaClearIf_bit (p : Bool) (f : ViaFlag) (v : Via) {n : Nat} (hn : n < 7) :
    (viaClearIf p f v).ifr.getLsbD n = (v.ifr.getLsbD n && (n != f.bit || !p)) := by
  cases p with
  | true => simp only [viaClearIf, if_pos, viaClear_bit f v hn, Bool.not_true, Bool.or_false]
  | false => simp only [viaClearIf, Bool.false_eq_true, if_false, Bool.not_false, Bool.or_true, Bool.and_true]

/-- A flag is set if its bit of IFR is. -/
theorem viaFlagSet_eq (f : ViaFlag) (v : Via) : viaFlagSet f v = v.ifr.getLsbD f.bit := by
  have h : ∀ x : BitVec 7, ((x &&& viaFlagMask f) != 0) = x.getLsbD f.bit := by cases f <;> decide
  exact h v.ifr

theorem viaFlagSet_raise (f g : ViaFlag) (v : Via) : viaFlagSet g (viaRaise f v) = (viaFlagSet g v || g == f) := by
  have hbit : (g.bit == f.bit) = (g == f) := by cases f <;> cases g <;> rfl
  rw [viaFlagSet_eq, viaFlagSet_eq, viaRaise_bit f v g.bit_lt, hbit]

/-! ## IFR and IER (R247, R248) -/

/-- A number is not zero if one of its bits is set. -/
theorem ne_zero_eq_any_bit (x : BitVec 7) : (x != 0) = (List.range 7).any fun n => x.getLsbD n := by
  revert x; decide

/-- Bit 7 of a read of IFR: an enabled flag is set (R251). -/
theorem viaIrq_eq_any (v : Via) : viaIrq v = (List.range 7).any fun n => v.ifr.getLsbD n && v.ier.getLsbD n := by
  simp only [viaIrq, ne_zero_eq_any_bit, BitVec.getLsbD_and]

theorem ofBool_append_getLsbD (bit : Bool) (x : BitVec 7) {n : Nat} (hn : n < 7) :
    (BitVec.ofBool bit ++ x).getLsbD n = x.getLsbD n := by
  rw [BitVec.getLsbD_append, if_pos hn]

theorem ofBool_append_getLsbD_seven (bit : Bool) (x : BitVec 7) : (BitVec.ofBool bit ++ x).getLsbD 7 = bit := by
  rw [BitVec.getLsbD_append, if_neg (by decide)]
  exact (BitVec.getLsbD_ofBool bit _).trans (Bool.true_and bit)

/-- The seven bits of a byte written to IFR or IER. -/
theorem lowBits_getLsbD (d : Byte) {n : Nat} (hn : n < 7) : (d.extractLsb' 0 7).getLsbD n = d.getLsbD n := by
  rw [BitVec.getLsbD_extractLsb', decide_eq_true hn, Bool.true_and, Nat.zero_add]

theorem viaWrite_ifr_bit (d : Byte) (v : Via) {n : Nat} (hn : n < 7) :
    (viaWrite 13 d v).ifr.getLsbD n = (v.ifr.getLsbD n && !d.getLsbD n) := by
  show (v.ifr &&& ~~~(d.extractLsb' 0 7)).getLsbD n = _
  rw [BitVec.getLsbD_and, BitVec.getLsbD_not, lowBits_getLsbD d hn, decide_eq_true hn, Bool.true_and]

/-- Bit 7 of a byte written to IER says what its 1 bits do. -/
theorem viaWriteIer_bit (d : Byte) (v : Via) {n : Nat} (hn : n < 7) :
    (viaWriteIer d v).ier.getLsbD n = if d.getLsbD n then d.getLsbD 7 else v.ier.getLsbD n := by
  unfold viaWriteIer
  cases h7 : d.getLsbD 7 with
  | true =>
    simp only [if_true, BitVec.getLsbD_or, lowBits_getLsbD d hn]
    cases d.getLsbD n <;> simp
  | false =>
    simp only [Bool.false_eq_true, if_false, BitVec.getLsbD_and, BitVec.getLsbD_not, lowBits_getLsbD d hn, hn,
      decide_true, Bool.true_and]
    cases d.getLsbD n <;> simp

theorem viaWriteIer_frame (d : Byte) (v : Via) : viaWriteIer d v = { v with ier := (viaWriteIer d v).ier } := by
  unfold viaWriteIer
  split <;> rfl

/-- Settles O55, bit by bit. -/
theorem interruptRegisters : Obligations.InterruptRegisters := by
  intro c d v
  refine ⟨rfl, rfl, ?irq, ofBool_append_getLsbD_seven true v.ier, fun n hn => ?bits⟩
  case irq => exact (ofBool_append_getLsbD_seven (viaIrq v) v.ifr).trans (viaIrq_eq_any v)
  case bits =>
    exact ⟨ofBool_append_getLsbD _ v.ifr hn, ofBool_append_getLsbD _ v.ier hn, viaWrite_ifr_bit d v hn,
      viaWriteIer_bit d v hn, rfl, viaWriteIer_frame d v⟩

/-! ## The control fields of PCR (R255) -/

/-- An independent input: bit 2 of the field is 0 and bit 0 is 1. -/
theorem isIndependent_toNat (x : BitVec 3) : isIndependent x.toNat = (!x.getLsbD 2 && x.getLsbD 0) := by
  revert x; decide

/-- Handshake and pulse: bit 2 of the field is 1 and bit 1 is 0. -/
theorem isHandshake_toNat (x : BitVec 3) : isHandshake x.toNat = (x.getLsbD 2 && !x.getLsbD 1) := by
  revert x; decide

theorem field_getLsbD (p : Byte) (start : Nat) {n : Nat} (hn : n < 3) :
    (p.extractLsb' start 3).getLsbD n = p.getLsbD (start + n) := by
  rw [BitVec.getLsbD_extractLsb', decide_eq_true hn, Bool.true_and]

theorem isIndependent_ca2 (v : Via) : isIndependent (ca2Control v) = (!v.pcr.getLsbD 3 && v.pcr.getLsbD 1) := by
  rw [ca2Control, isIndependent_toNat, field_getLsbD _ _ (by decide), field_getLsbD _ _ (by decide)]

theorem isIndependent_cb2 (v : Via) : isIndependent (cb2Control v) = (!v.pcr.getLsbD 7 && v.pcr.getLsbD 5) := by
  rw [cb2Control, isIndependent_toNat, field_getLsbD _ _ (by decide), field_getLsbD _ _ (by decide)]

theorem isHandshake_ca2 (v : Via) : isHandshake (ca2Control v) = (v.pcr.getLsbD 3 && !v.pcr.getLsbD 2) := by
  rw [ca2Control, isHandshake_toNat, field_getLsbD _ _ (by decide), field_getLsbD _ _ (by decide)]

theorem isHandshake_cb2 (v : Via) : isHandshake (cb2Control v) = (v.pcr.getLsbD 7 && !v.pcr.getLsbD 6) := by
  rw [cb2Control, isHandshake_toNat, field_getLsbD _ _ (by decide), field_getLsbD _ _ (by decide)]

/-! ## The port registers (R234 to R237, R249) -/

theorem viaClearIf_eq (p : Bool) (f : ViaFlag) (v : Via) :
    viaClearIf p f v = { v with ifr := if p then v.ifr &&& ~~~viaFlagMask f else v.ifr } := by
  cases p <;> rfl

/-- CA2 goes low in the handshake and pulse modes, and the pulse mode begins a pulse (R260). -/
theorem lowerCa2_eq (v : Via) :
    (if isHandshake (ca2Control v) then { v with ca2Out := false, ca2Pulse := ca2Control v == 5 } else v) =
      { v with
        ca2Out := v.ca2Out && !isHandshake (ca2Control v)
        ca2Pulse := if isHandshake (ca2Control v) then ca2Control v == 5 else v.ca2Pulse } := by
  split <;> simp [*]

/-- The same of CB2, which a write of register 0 lowers. -/
theorem viaHandshakeB_eq (v : Via) : viaHandshakeB v =
    { v with
      cb2Out := v.cb2Out && !isHandshake (cb2Control v)
      cb2Pulse := if isHandshake (cb2Control v) then cb2Control v == 5 else v.cb2Pulse } := by
  unfold viaHandshakeB
  split <;> simp [*]

/-- What an access of register 1 does: the flags of CA1 and CA2, and CA2 in the handshake and pulse modes. -/
theorem viaAccessA_eq (v : Via) : viaAccessA v =
    { v with
      ifr := (viaClearIf (!isIndependent (ca2Control v)) .ca2 (viaClear .ca1 v)).ifr
      ca2Out := v.ca2Out && !isHandshake (ca2Control v)
      ca2Pulse := if isHandshake (ca2Control v) then ca2Control v == 5 else v.ca2Pulse } := by
  refine (lowerCa2_eq (viaClearIf (!isIndependent (ca2Control v)) .ca2 (viaClear .ca1 v))).trans ?_
  rw [viaClearIf_eq]
  rfl

theorem viaAccessB_eq (v : Via) : viaAccessB v = { v with ifr := (viaAccessB v).ifr } := by
  unfold viaAccessB
  simp only [viaClearIf_eq]
  rfl

theorem viaAccessA_frame (v : Via) : viaAccessA v =
    { v with ifr := (viaAccessA v).ifr, ca2Out := (viaAccessA v).ca2Out, ca2Pulse := (viaAccessA v).ca2Pulse } := by
  rw [viaAccessA_eq]

/-- A write of register 1 is a read of it that sets ORA. -/
theorem viaAccessA_putOra (d : Byte) (v : Via) :
    viaAccessA { v with ora := d } = { viaAccessA v with ora := d } := by
  rw [viaAccessA_eq, viaAccessA_eq v, viaClearIf_eq, viaClearIf_eq]
  rfl

/-- A write of register 0: ORB, the flags a read clears too, and CB2 in the handshake and pulse modes. -/
theorem viaWrite_orb (d : Byte) (v : Via) : viaWrite 0 d v =
    { v with
      orb := d
      ifr := (viaAccessB v).ifr
      cb2Out := v.cb2Out && !isHandshake (cb2Control v)
      cb2Pulse := if isHandshake (cb2Control v) then cb2Control v == 5 else v.cb2Pulse } := by
  have hflags : viaAccessB { v with orb := d } = { v with orb := d, ifr := (viaAccessB v).ifr } := by
    unfold viaAccessB
    simp only [viaClearIf_eq]
    rfl
  exact (congrArg viaHandshakeB hflags).trans (viaHandshakeB_eq _)

/-- The flags an access of register 1 clears. -/
theorem viaAccessA_bit (v : Via) {n : Nat} (hn : n < 7) :
    (viaAccessA v).ifr.getLsbD n =
      (v.ifr.getLsbD n && n != 1 && (n != 0 || (!v.pcr.getLsbD 3 && v.pcr.getLsbD 1))) := by
  rw [viaAccessA_eq, ← isIndependent_ca2]
  simp only [viaClearIf_bit _ _ _ hn, viaClear_bit _ _ hn, Bool.not_not, ViaFlag.bit]

/-- The flags an access of register 0 clears. -/
theorem viaAccessB_bit (v : Via) {n : Nat} (hn : n < 7) :
    (viaAccessB v).ifr.getLsbD n =
      (v.ifr.getLsbD n && n != 4 && (n != 3 || (!v.pcr.getLsbD 7 && v.pcr.getLsbD 5))) := by
  rw [← isIndependent_cb2]
  show (viaClearIf (!isIndependent (cb2Control v)) .cb2 (viaClear .cb1 v)).ifr.getLsbD n = _
  simp only [viaClearIf_bit _ _ _ hn, viaClear_bit _ _ hn, Bool.not_not, ViaFlag.bit]

/-- A port whose output bits come from one byte and whose input bits from another. -/
theorem port_getLsbD (out pins dir : Byte) {n : Nat} (hn : n < 8) :
    ((out &&& dir) ||| (pins &&& ~~~dir)).getLsbD n = if dir.getLsbD n then out.getLsbD n else pins.getLsbD n := by
  rw [BitVec.getLsbD_or, BitVec.getLsbD_and, BitVec.getLsbD_and, BitVec.getLsbD_not, decide_eq_true hn, Bool.true_and]
  cases dir.getLsbD n <;> simp

/-- With latching off a read of port A is the pins (R235). -/
theorem viaReadPortA_getLsbD {v : Via} (hlatch : v.acr.getLsbD 0 = false) {n : Nat} (hn : n < 8) :
    (viaReadPortA v).getLsbD n = if v.ddra.getLsbD n then v.ora.getLsbD n else v.pa.getLsbD n := by
  rw [viaReadPortA, hlatch, Bool.false_and, if_neg Bool.false_ne_true]
  exact port_getLsbD v.ora v.pa v.ddra hn

/-- Timer 1 drives at most bit 7 of port B (log 19). -/
theorem viaInputB_getLsbD {v : Via} {n : Nat} (hn : n < 7 ∨ v.acr.getLsbD 7 = false) :
    (viaInputB v).getLsbD n = v.pb.getLsbD n := by
  unfold viaInputB
  split
  · have hlow : n < 7 := hn.resolve_right (by simp [*])
    have hpins : ∀ m < 7, (0x7F#8).getLsbD m = true := by decide
    have hdriven : ∀ m < 7, ∀ b : Bool, (if b then 0x80#8 else 0x00#8).getLsbD m = false := by decide
    rw [BitVec.getLsbD_or, BitVec.getLsbD_and, hpins n hlow, hdriven n hlow, Bool.and_true, Bool.or_false]
  · rfl

/-- With latching off a read of port B is the pins, but for an input bit 7 that timer 1 drives (R234). -/
theorem viaReadPortB_getLsbD {v : Via} (hlatch : v.acr.getLsbD 1 = false) {n : Nat} (hn : n < 8)
    (hpin : n < 7 ∨ v.acr.getLsbD 7 = false ∨ v.ddrb.getLsbD 7 = true) :
    (viaReadPortB v).getLsbD n = if v.ddrb.getLsbD n then v.orb.getLsbD n else v.pb.getLsbD n := by
  simp only [viaReadPortB, hlatch, Bool.false_and, Bool.false_eq_true, if_false]
  rw [port_getLsbD v.orb _ v.ddrb hn]
  split
  · rfl
  · refine viaInputB_getLsbD ?_
    by_cases hlow : n < 7
    · exact .inl hlow
    · have hseven : n = 7 := by omega
      subst hseven
      exact .inr ((hpin.resolve_left hlow).resolve_right ‹_›)

/-- Settles O56: the reads bit by bit, the accesses as records. -/
theorem portReads : Obligations.PortReads := by
  intro c d v readA readB independentA independentB
  refine ⟨fun n hn => ⟨fun h => viaReadPortA_getLsbD h hn, fun h hpin => viaReadPortB_getLsbD h hn hpin⟩,
    fun n hn => ⟨viaAccessA_bit v hn, viaAccessB_bit v hn⟩, ?ca2, ?readA, viaAccessB_eq v, fun _ => rfl, rfl, rfl,
    ?writeA, ?cb2, ?writeB, rfl, rfl, rfl⟩
  case ca2 =>
    rw [← isHandshake_ca2]
    exact congrArg Via.ca2Out (viaAccessA_eq v)
  case readA => exact viaAccessA_frame v
  case writeA => exact viaAccessA_putOra d v
  case cb2 =>
    rw [← isHandshake_cb2]
    exact congrArg Via.cb2Out (viaWrite_orb d v)
  case writeB => rw [viaWrite_orb]; rfl

end Sys2Proof.Machine

/-! # The VIA in time: ticks and timers (O57)

Each stage of a tick has a frame: an equation that lists the fields it may write, and `RaisesOnly` for the flags it may set. A
timer is then followed through a tick past the stages that leave it alone. -/

namespace Sys2Proof.Machine

/-! ## Raising flags (60_exceptions R250) -/

/-- From `v` to `w` no flag is cleared, and only the flags listed may be set. -/
def RaisesOnly (l : List ViaFlag) (v w : Via) : Prop :=
  ∀ n, n < 7 → w.ifr.getLsbD n = v.ifr.getLsbD n ∨ n ∈ l.map ViaFlag.bit ∧ w.ifr.getLsbD n = true

theorem RaisesOnly.of_eq {l : List ViaFlag} {v w : Via} (h : w.ifr = v.ifr) : RaisesOnly l v w :=
  fun _ _ => .inl (by rw [h])

theorem RaisesOnly.trans {l : List ViaFlag} {u v w : Via} (h : RaisesOnly l u v) (g : RaisesOnly l v w) :
    RaisesOnly l u w := by
  intro n hn
  rcases g n hn with hg | hg
  · rw [hg]
    exact h n hn
  · exact .inr hg

theorem RaisesOnly.kept {l : List ViaFlag} {v w : Via} (h : RaisesOnly l v w) {n : Nat} (hn : n < 7)
    (hl : n ∉ l.map ViaFlag.bit) : w.ifr.getLsbD n = v.ifr.getLsbD n :=
  (h n hn).resolve_right fun hr => hl hr.1

theorem RaisesOnly.set_of_set {l : List ViaFlag} {v w : Via} (h : RaisesOnly l v w) {n : Nat} (hn : n < 7)
    (hv : v.ifr.getLsbD n = true) : w.ifr.getLsbD n = true := by
  rcases h n hn with hw | hw
  · rw [hw, hv]
  · exact hw.2

theorem RaisesOnly.flag_kept {l : List ViaFlag} {v w : Via} (h : RaisesOnly l v w) {f : ViaFlag}
    (hl : f.bit ∉ l.map ViaFlag.bit) : viaFlagSet f w = viaFlagSet f v := by
  rw [viaFlagSet_eq, viaFlagSet_eq, h.kept f.bit_lt hl]

theorem viaRaise_raises {f : ViaFlag} {l : List ViaFlag} (hf : f ∈ l) (v : Via) : RaisesOnly l v (viaRaise f v) := by
  intro n hn
  rw [viaRaise_bit f v hn]
  by_cases h : n = f.bit
  · exact .inr ⟨h ▸ List.mem_map_of_mem hf, by simp [h]⟩
  · exact .inl (by simp [h])

/-! ## What each stage of a tick may write (R256 to R260) -/

theorem viaShiftBit_frame (v : Via) :
    viaShiftBit v = { v with sr := (viaShiftBit v).sr, cb2Out := (viaShiftBit v).cb2Out } := by
  unfold viaShiftBit
  split <;> rfl

theorem viaShift_frame (v : Via) : viaShift v =
    { v with
      sr := (viaShift v).sr
      srCount := (viaShift v).srCount
      cb2Out := (viaShift v).cb2Out
      ifr := (viaShift v).ifr } := by
  unfold viaShift
  rw [viaShiftBit_frame]
  simp only
  split
  · rfl
  · split <;> rfl

theorem viaShift_raises (v : Via) : RaisesOnly [.shift] v (viaShift v) := by
  unfold viaShift
  rw [viaShiftBit_frame]
  simp only
  split
  · exact .of_eq rfl
  · split
    · exact viaRaise_raises (List.mem_singleton.mpr rfl) _
    · exact .of_eq rfl

theorem viaShiftClock_frame (v : Via) : viaShiftClock v =
    { v with
      sr := (viaShiftClock v).sr
      srCount := (viaShiftClock v).srCount
      srPhase := (viaShiftClock v).srPhase
      cb2Out := (viaShiftClock v).cb2Out
      ifr := (viaShiftClock v).ifr } := by
  unfold viaShiftClock
  split
  · split
    · rw [viaShift_frame]
    · rfl
  · rfl

theorem viaShiftClock_raises (v : Via) : RaisesOnly [.shift] v (viaShiftClock v) := by
  unfold viaShiftClock
  split
  · split
    · exact (RaisesOnly.of_eq rfl).trans (viaShift_raises { v with srPhase := false })
    · exact .of_eq rfl
  · exact .of_eq rfl

/-- Timer 1 as its counter passes zero. -/
def timer1Wrap (v : Via) : Via :=
  if v.t1Armed then
    let flagged := viaRaise .timer1 { v with t1c := 0xFFFF#16 }
    let flagged := if v.acr.getLsbD 6 then flagged else { flagged with t1Armed := false }
    if v.acr.getLsbD 7 then { flagged with pb7Out := if v.acr.getLsbD 6 then !v.pb7Out else true } else flagged
  else { v with t1c := 0xFFFF#16 }

theorem viaTimer1_eq (v : Via) : viaTimer1 v =
    if v.t1Reload then { v with t1c := v.t1l, t1Reload := false }
    else if v.t1c = 0 then (if v.acr.getLsbD 6 then { timer1Wrap v with t1Reload := true } else timer1Wrap v)
    else { v with t1c := v.t1c - 1 } := rfl

theorem timer1Wrap_eq (v : Via) : timer1Wrap v =
    { v with
      t1c := 0xFFFF#16
      t1Armed := v.t1Armed && v.acr.getLsbD 6
      ifr := if v.t1Armed then v.ifr ||| viaFlagMask .timer1 else v.ifr
      pb7Out := (timer1Wrap v).pb7Out } := by
  unfold timer1Wrap
  cases harmed : v.t1Armed with
  | false => simp only [Bool.false_eq_true, if_false, Bool.false_and]
  | true =>
    cases hfree : v.acr.getLsbD 6 <;> cases v.acr.getLsbD 7 <;>
      simp only [viaRaise, if_true, Bool.false_eq_true, if_false, Bool.and_true, Bool.and_false]

theorem viaTimer1_frame (v : Via) : viaTimer1 v =
    { v with
      t1c := (viaTimer1 v).t1c
      t1Reload := (viaTimer1 v).t1Reload
      t1Armed := (viaTimer1 v).t1Armed
      pb7Out := (viaTimer1 v).pb7Out
      ifr := (viaTimer1 v).ifr } := by
  unfold viaTimer1 viaRaise
  simp only
  repeat' split
  all_goals rfl

theorem viaTimer1_raises (v : Via) : RaisesOnly [.timer1] v (viaTimer1 v) := by
  have hwrap : RaisesOnly [.timer1] v (timer1Wrap v) := by
    rw [timer1Wrap_eq]
    cases v.t1Armed with
    | true => exact viaRaise_raises (List.mem_singleton.mpr rfl) v
    | false => exact .of_eq rfl
  rw [viaTimer1_eq]
  split
  · exact .of_eq rfl
  · split
    · split <;> exact hwrap
    · exact .of_eq rfl

theorem viaTimer2Out_frame (v : Via) :
    viaTimer2Out v = { v with t2Armed := (viaTimer2Out v).t2Armed, ifr := (viaTimer2Out v).ifr } := by
  unfold viaTimer2Out
  split <;> rfl

theorem viaTimer2Out_raises (v : Via) : RaisesOnly [.timer2, .shift] v (viaTimer2Out v) := by
  unfold viaTimer2Out
  split
  · exact viaRaise_raises (by decide) v
  · exact .of_eq rfl

theorem viaTimer2_frame (v : Via) : viaTimer2 v =
    { v with
      t2c := (viaTimer2 v).t2c
      t2Armed := (viaTimer2 v).t2Armed
      sr := (viaTimer2 v).sr
      srCount := (viaTimer2 v).srCount
      srPhase := (viaTimer2 v).srPhase
      cb2Out := (viaTimer2 v).cb2Out
      ifr := (viaTimer2 v).ifr } := by
  unfold viaTimer2
  split
  · rw [viaShiftClock_frame]
    split
    · rw [viaTimer2Out_frame]
    · rfl
  · split
    · rw [viaTimer2Out_frame]
    · rfl

theorem viaTimer2_raises (v : Via) : RaisesOnly [.timer2, .shift] v (viaTimer2 v) := by
  have weaken {u w : Via} (h : RaisesOnly [.shift] u w) : RaisesOnly [.timer2, .shift] u w :=
    fun n hn => (h n hn).imp_right fun hr => ⟨List.mem_cons_of_mem _ hr.1, hr.2⟩
  have hflagged : RaisesOnly [.timer2, .shift] v (if v.t2c = 0 then viaTimer2Out v else v) := by
    split
    · exact viaTimer2Out_raises v
    · exact .of_eq rfl
  unfold viaTimer2
  split
  · exact hflagged.trans ((RaisesOnly.of_eq rfl).trans (weaken (viaShiftClock_raises _)))
  · split
    · exact (RaisesOnly.of_eq rfl).trans (viaTimer2Out_raises { v with t2c := 0xFFFF#16 })
    · exact .of_eq rfl

theorem endPulse_ca2 (v : Via) : (if v.ca2Pulse then { v with ca2Out := true, ca2Pulse := false } else v) =
    { v with ca2Out := v.ca2Out || v.ca2Pulse, ca2Pulse := false } := by
  cases h : v.ca2Pulse with
  | true => simp only [if_true, Bool.or_true]
  | false =>
    simp only [Bool.false_eq_true, if_false, Bool.or_false]
    rw [← h]

theorem endPulse_cb2 (v : Via) : (if v.cb2Pulse then { v with cb2Out := true, cb2Pulse := false } else v) =
    { v with cb2Out := v.cb2Out || v.cb2Pulse, cb2Pulse := false } := by
  cases h : v.cb2Pulse with
  | true => simp only [if_true, Bool.or_true]
  | false =>
    simp only [Bool.false_eq_true, if_false, Bool.or_false]
    rw [← h]

theorem viaEndPulses_frame (v : Via) : viaEndPulses v =
    { v with
      ca2Out := v.ca2Out || v.ca2Pulse
      ca2Pulse := false
      cb2Out := v.cb2Out || v.cb2Pulse
      cb2Pulse := false } := by
  unfold viaEndPulses
  rw [endPulse_cb2, endPulse_ca2]

/-! ## A tick, in stages -/

/-- Timer 2 at a tick: only in timed mode (R257). -/
def timedTimer2 (v : Via) : Via := if v.acr.getLsbD 5 then v else viaTimer2 v

/-- The shift modes that the system clock drives (R258). -/
def systemShift (v : Via) : Via := if shiftMode v = 2 || shiftMode v = 6 then viaShiftClock v else v

theorem viaTick_eq (v : Via) : viaTick v = systemShift (timedTimer2 (viaTimer1 (viaEndPulses v))) := rfl

theorem timedTimer2_frame (v : Via) : timedTimer2 v =
    { v with
      t2c := (timedTimer2 v).t2c
      t2Armed := (timedTimer2 v).t2Armed
      sr := (timedTimer2 v).sr
      srCount := (timedTimer2 v).srCount
      srPhase := (timedTimer2 v).srPhase
      cb2Out := (timedTimer2 v).cb2Out
      ifr := (timedTimer2 v).ifr } := by
  unfold timedTimer2
  split
  · rfl
  · rw [viaTimer2_frame]

theorem timedTimer2_raises (v : Via) : RaisesOnly [.timer2, .shift] v (timedTimer2 v) := by
  unfold timedTimer2
  split
  · exact .of_eq rfl
  · exact viaTimer2_raises v

theorem systemShift_frame (v : Via) : systemShift v =
    { v with
      sr := (systemShift v).sr
      srCount := (systemShift v).srCount
      srPhase := (systemShift v).srPhase
      cb2Out := (systemShift v).cb2Out
      ifr := (systemShift v).ifr } := by
  unfold systemShift
  split
  · rw [viaShiftClock_frame]
  · rfl

theorem systemShift_raises (v : Via) : RaisesOnly [.shift] v (systemShift v) := by
  unfold systemShift
  split
  · exact viaShiftClock_raises v
  · exact .of_eq rfl

/-- No tick writes ACR. -/
theorem viaTick_acr (v : Via) : (viaTick v).acr = v.acr := by
  rw [viaTick_eq, systemShift_frame, timedTimer2_frame, viaTimer1_frame, viaEndPulses_frame]

/-- Ticks counted from the other end. -/
theorem viaAdvance_succ (n : Nat) (v : Via) : viaAdvance (n + 1) v = viaTick (viaAdvance n v) := by
  induction n generalizing v with
  | zero => rfl
  | succ n ih => exact ih (viaTick v)

/-- CA2 changes at a tick only by the end of a pulse. -/
theorem viaTick_ca2Out (v : Via) : (viaTick v).ca2Out = (v.ca2Out || v.ca2Pulse) := by
  rw [viaTick_eq, systemShift_frame, timedTimer2_frame, viaTimer1_frame, viaEndPulses_frame]

/-! ## The timers' registers (R238 to R243, R245, R264) -/

/-- A start of timer 1 (R239). -/
theorem viaStartTimer1_eq (d : Byte) (v : Via) : viaStartTimer1 d v =
    { v with
      t1l := joinBytes d (loByte v.t1l)
      t1c := joinBytes d (loByte v.t1l)
      ifr := v.ifr &&& ~~~viaFlagMask .timer1
      t1Armed := true
      t1Reload := false
      pb7Out := v.pb7Out && !v.acr.getLsbD 7 } := by
  unfold viaStartTimer1 viaClear
  cases h : v.acr.getLsbD 7 with
  | true => simp only [h, if_true, Bool.not_true, Bool.and_false]
  | false => simp only [h, Bool.false_eq_true, if_false, Bool.not_false, Bool.and_true]

/-- The registers of O57: what each access answers and writes. -/
theorem timerRegisters (c : TimerClear) (d : Byte) (v : Via) :
    let low := v.t1l.extractLsb' 0 8
    viaRead c 4 v = (v.t1c.extractLsb' 0 8, { v with ifr := if c = .highOnly then v.ifr else v.ifr &&& 0x3F }) ∧
    viaRead c 5 v = (v.t1c.extractLsb' 8 8, { v with ifr := if c = .lowOnly then v.ifr else v.ifr &&& 0x3F }) ∧
    viaRead c 6 v = (low, v) ∧ viaRead c 7 v = (v.t1l.extractLsb' 8 8, v) ∧
    viaRead c 8 v = (v.t2c.extractLsb' 0 8, { v with ifr := if c = .highOnly then v.ifr else v.ifr &&& 0x5F }) ∧
    viaRead c 9 v = (v.t2c.extractLsb' 8 8, { v with ifr := if c = .lowOnly then v.ifr else v.ifr &&& 0x5F }) ∧
    viaWrite 4 d v = { v with t1l := v.t1l.extractLsb' 8 8 ++ d } ∧ viaWrite 6 d v = viaWrite 4 d v ∧
    viaWrite 5 d v =
      { v with
        t1l := d ++ low, t1c := d ++ low, ifr := v.ifr &&& 0x3F, t1Armed := true, t1Reload := false
        pb7Out := v.pb7Out && !v.acr.getLsbD 7 } ∧
    viaWrite 7 d v = { v with t1l := d ++ low, ifr := v.ifr &&& 0x3F } ∧
    viaWrite 8 d v = { v with t2ll := d } ∧
    viaWrite 9 d v = { v with t2c := d ++ v.t2ll, ifr := v.ifr &&& 0x5F, t2Armed := true } ∧
    viaRead c 11 v = (v.acr, v) ∧ viaWrite 11 d v = { v with acr := d } := by
  intro low
  have hread (f : ViaFlag) (b : Byte) : ∀ c : TimerClear,
      (b, viaClearIf (clearsOnLow c) f v) =
        (b, { v with ifr := if c = .highOnly then v.ifr else v.ifr &&& ~~~viaFlagMask f }) ∧
      (b, viaClearIf (clearsOnHigh c) f v) =
        (b, { v with ifr := if c = .lowOnly then v.ifr else v.ifr &&& ~~~viaFlagMask f }) := by
    intro c
    cases c <;> exact ⟨rfl, rfl⟩
  exact ⟨(hread .timer1 _ c).1, (hread .timer1 _ c).2, rfl, rfl, (hread .timer2 _ c).1, (hread .timer2 _ c).2, rfl, rfl,
    viaStartTimer1_eq d v, rfl, rfl, rfl, rfl, rfl⟩

/-! ## Counting down to the time-out (R256, R257) -/

/-- What the time-out of a timer depends on: its counter, whether a time-out will set the flag, the flag. -/
structure CountDown where
  count : Word
  armed : Bool
  flag : Bool

/-- One count: at zero the counter wraps and an armed timer sets its flag; `again` says whether it stays armed. -/
def CountDown.tick (again : Bool) (c : CountDown) : CountDown :=
  if c.count = 0 then ⟨0xFFFF, c.armed && again, c.flag || c.armed⟩ else { c with count := c.count - 1 }

/-- A view of the device counts down at each tick while the device is `ready`, and the device stays so up to the time-out,
and past it when the timer does not count `again`. -/
def CountsDown (view : Via → CountDown) (again : Bool) (ready : Via → Prop) : Prop :=
  ∀ v, ready v → view (viaTick v) = (view v).tick again ∧ ((view v).count ≠ 0 ∨ again = false → ready (viaTick v))

section
variable {view : Via → CountDown} {again : Bool} {ready : Via → Prop} {v : Via}

theorem CountsDown.before (h : CountsDown view again ready) (hv : ready v) {n : Nat} (hn : n ≤ (view v).count.toNat) :
    ready (viaAdvance n v) ∧ (view (viaAdvance n v)).count.toNat = (view v).count.toNat - n ∧
      (view (viaAdvance n v)).armed = (view v).armed ∧ (view (viaAdvance n v)).flag = (view v).flag := by
  induction n with
  | zero => exact ⟨hv, rfl, rfl, rfl⟩
  | succ n ih =>
    obtain ⟨hready, hcount, harmed, hflag⟩ := ih (by omega)
    obtain ⟨htick, hkept⟩ := h _ hready
    have hne : (view (viaAdvance n v)).count ≠ 0 := by
      intro hzero
      rw [hzero, show (0 : Word).toNat = 0 from rfl] at hcount
      omega
    have hless : ((view (viaAdvance n v)).count - 1).toNat = (view v).count.toNat - (n + 1) := by bv_omega
    rw [viaAdvance_succ, htick, CountDown.tick, if_neg hne]
    exact ⟨hkept (.inl hne), hless, harmed, hflag⟩

/-- The tick after the counter has reached zero. -/
theorem CountsDown.out (h : CountsDown view again ready) (hv : ready v) (harmed : (view v).armed = true) :
    view (viaAdvance ((view v).count.toNat + 1) v) = ⟨0xFFFF, again, true⟩ ∧
      (again = false → ready (viaAdvance ((view v).count.toNat + 1) v)) := by
  obtain ⟨hready, hcount, harmed', -⟩ := h.before hv (Nat.le_refl _)
  obtain ⟨htick, hkept⟩ := h _ hready
  have hzero : (view (viaAdvance (view v).count.toNat v)).count = 0 := BitVec.eq_of_toNat_eq (hcount.trans (Nat.sub_self _))
  rw [viaAdvance_succ, htick, CountDown.tick, if_pos hzero, harmed', harmed, Bool.true_and, Bool.or_true]
  exact ⟨rfl, fun hagain => hkept (.inr hagain)⟩

/-- A timer that is not armed sets no flag, however long it counts. -/
theorem CountsDown.spent (h : CountsDown view false ready) (hv : ready v) (harmed : (view v).armed = false)
    (hflag : (view v).flag = false) (n : Nat) : (view (viaAdvance n v)).flag = false := by
  suffices hall : ready (viaAdvance n v) ∧ (view (viaAdvance n v)).armed = false ∧ (view (viaAdvance n v)).flag = false from
    hall.2.2
  induction n with
  | zero => exact ⟨hv, harmed, hflag⟩
  | succ n ih =>
    obtain ⟨hready, harmed, hflag⟩ := ih
    obtain ⟨htick, hkept⟩ := h _ hready
    rw [viaAdvance_succ, htick, CountDown.tick]
    refine ⟨hkept (.inr rfl), ?_⟩
    split
    · simp only [harmed, hflag, Bool.false_and, Bool.or_false, and_self]
    · exact ⟨harmed, hflag⟩

end

/-! ### Timer 1 -/

/-- Timer 1 as a count down. -/
def timer1View (v : Via) : CountDown := ⟨v.t1c, v.t1Armed, viaFlagSet .timer1 v⟩

/-- Timer 1 is not about to reload, and its mode is `freeRun`. -/
def Timer1Ready (freeRun : Bool) (v : Via) : Prop := v.t1Reload = false ∧ v.acr.getLsbD 6 = freeRun

theorem timer1View_wrap (v : Via) :
    timer1View (timer1Wrap v) = ⟨0xFFFF, v.t1Armed && v.acr.getLsbD 6, viaFlagSet .timer1 v || v.t1Armed⟩ := by
  have hflag : viaFlagSet .timer1 (timer1Wrap v) = (viaFlagSet .timer1 v || v.t1Armed) := by
    rw [timer1Wrap_eq]
    cases v.t1Armed with
    | true => exact viaFlagSet_raise .timer1 .timer1 v
    | false => exact (Bool.or_false _).symm
  rw [timer1View, hflag, timer1Wrap_eq]
  rfl

theorem viaTimer1_counts {v : Via} (hreload : v.t1Reload = false) :
    timer1View (viaTimer1 v) = (timer1View v).tick (v.acr.getLsbD 6) ∧
      (v.t1c ≠ 0 ∨ v.acr.getLsbD 6 = false → (viaTimer1 v).t1Reload = false) := by
  by_cases hzero : v.t1c = 0
  · have hkept : (timer1Wrap v).t1Reload = false := by rw [timer1Wrap_eq]; exact hreload
    rw [viaTimer1_eq, if_neg (by simp [hreload]), if_pos hzero, CountDown.tick,
      if_pos (show (timer1View v).count = 0 from hzero)]
    have hview := timer1View_wrap v
    cases hfree : v.acr.getLsbD 6 <;> rw [hfree] at hview
    case true => exact ⟨hview, fun h => by simp [hzero] at h⟩
    case false => exact ⟨hview, fun _ => hkept⟩
  · rw [viaTimer1_eq, if_neg (by simp [hreload]), if_neg hzero, CountDown.tick,
      if_neg (show (timer1View v).count ≠ 0 from hzero)]
    exact ⟨rfl, fun _ => hreload⟩

/-- The stages of a tick before and after timer 1 leave it alone. -/
theorem viaTick_timer1 (freeRun : Bool) : CountsDown timer1View freeRun (Timer1Ready freeRun) := by
  intro v ⟨hreload, hfree⟩
  have hpulses : timer1View (viaEndPulses v) = timer1View v := by rw [viaEndPulses_frame]; rfl
  have hlater (w : Via) : timer1View (systemShift (timedTimer2 w)) = timer1View w := by
    have hflag : viaFlagSet .timer1 (systemShift (timedTimer2 w)) = viaFlagSet .timer1 w :=
      ((systemShift_raises _).flag_kept (by decide)).trans ((timedTimer2_raises w).flag_kept (by decide))
    rw [timer1View, hflag, systemShift_frame, timedTimer2_frame]
    rfl
  have hacr : (viaEndPulses v).acr = v.acr := by rw [viaEndPulses_frame]
  obtain ⟨hcounts, hready⟩ := viaTimer1_counts (v := viaEndPulses v) (by rw [viaEndPulses_frame]; exact hreload)
  rw [hpulses, hacr, hfree] at hcounts
  rw [hacr, hfree] at hready
  refine ⟨?view, fun h => ⟨?reload, by rw [viaTick_acr, hfree]⟩⟩
  case view => rw [viaTick_eq, hlater, hcounts]
  case reload =>
    have hcount : (viaEndPulses v).t1c = v.t1c := by rw [viaEndPulses_frame]
    rw [viaTick_eq, systemShift_frame, timedTimer2_frame]
    exact hready (h.imp_left fun hne => hcount ▸ hne)

/-! ### Timer 2 -/

/-- Timer 2 as a count down. -/
def timer2View (v : Via) : CountDown := ⟨v.t2c, v.t2Armed, viaFlagSet .timer2 v⟩

/-- Timer 2 counts ticks and does not clock the shift register. -/
def Timer2Ready (v : Via) : Prop := v.acr.getLsbD 5 = false ∧ timer2Shifts v = false

theorem Timer2Ready.of_acr {v w : Via} (h : Timer2Ready v) (hacr : w.acr = v.acr) : Timer2Ready w := by
  unfold Timer2Ready timer2Shifts shiftMode at *
  rw [hacr]
  exact h

/-- Where timer 2 does not clock the shift register, a time-out of its low byte is nothing of its own. -/
theorem viaTimer2_of_not_shifts {v : Via} (h : timer2Shifts v = false) :
    viaTimer2 v = if v.t2c = 0 then viaTimer2Out { v with t2c := 0xFFFF#16 } else { v with t2c := v.t2c - 1 } := by
  unfold viaTimer2
  rw [h, if_neg (by simp)]

theorem timer2View_timer2Out (v : Via) :
    timer2View (viaTimer2Out v) = ⟨v.t2c, false, viaFlagSet .timer2 v || v.t2Armed⟩ := by
  unfold viaTimer2Out
  cases harmed : v.t2Armed with
  | true =>
    have hflag := viaFlagSet_raise .timer2 .timer2 v
    simp only [if_true]
    exact congrArg (CountDown.mk v.t2c false) hflag
  | false => simp only [Bool.false_eq_true, if_false, timer2View, harmed, Bool.or_false]

theorem timedTimer2_counts {v : Via} (h : Timer2Ready v) : timer2View (timedTimer2 v) = (timer2View v).tick false := by
  obtain ⟨htimed, hshifts⟩ := h
  rw [timedTimer2, htimed, if_neg Bool.false_ne_true, viaTimer2_of_not_shifts hshifts, CountDown.tick, Bool.and_false]
  by_cases hzero : v.t2c = 0
  · rw [if_pos hzero, timer2View_timer2Out, if_pos (show (timer2View v).count = 0 from hzero)]
    rfl
  · rw [if_neg hzero, if_neg (show (timer2View v).count ≠ 0 from hzero)]
    rfl

/-- The stages of a tick before and after timer 2 leave it alone. -/
theorem viaTick_timer2 : CountsDown timer2View false Timer2Ready := by
  intro v hready
  have hearlier : timer2View (viaTimer1 (viaEndPulses v)) = timer2View v := by
    rw [timer2View, (viaTimer1_raises _).flag_kept (by decide), viaTimer1_frame, viaEndPulses_frame]
    rfl
  have hlater (w : Via) : timer2View (systemShift w) = timer2View w := by
    rw [timer2View, (systemShift_raises w).flag_kept (by decide), systemShift_frame]
    rfl
  have hacr : (viaTimer1 (viaEndPulses v)).acr = v.acr := by rw [viaTimer1_frame, viaEndPulses_frame]
  refine ⟨?_, fun _ => hready.of_acr (viaTick_acr v)⟩
  rw [viaTick_eq, hlater, timedTimer2_counts (hready.of_acr hacr), hearlier]

/-! ### O57 -/

theorem clear_timer1View (v : Via) : timer1View (viaWrite 13 0x40 v) = { timer1View v with flag := false } := by
  have hflag : viaFlagSet .timer1 (viaWrite 13 0x40 v) = false := by
    rw [viaFlagSet_eq, viaWrite_ifr_bit _ _ (ViaFlag.bit_lt _)]
    exact Bool.and_false _
  exact congrArg (CountDown.mk v.t1c v.t1Armed) hflag

theorem Timer1Ready.clear {freeRun : Bool} {v : Via} (h : Timer1Ready freeRun v) (d : Byte) :
    Timer1Ready freeRun (viaWrite 13 d v) := h

theorem Timer2Ready.clear {v : Via} (h : Timer2Ready v) (d : Byte) : Timer2Ready (viaWrite 13 d v) := h

theorem clear_timer2View (v : Via) : timer2View (viaWrite 13 0x20 v) = { timer2View v with flag := false } := by
  have hflag : viaFlagSet .timer2 (viaWrite 13 0x20 v) = false := by
    rw [viaFlagSet_eq, viaWrite_ifr_bit _ _ (ViaFlag.bit_lt _)]
    exact Bool.and_false _
  exact congrArg (CountDown.mk v.t2c v.t2Armed) hflag

theorem start_timer1View (d : Byte) (v : Via) :
    timer1View (viaWrite 5 d v) = ⟨joinBytes d (loByte v.t1l), true, false⟩ ∧
      Timer1Ready (v.acr.getLsbD 6) (viaWrite 5 d v) := by
  have hflag := viaClear_bit .timer1 v (ViaFlag.bit_lt .timer1)
  rw [bne_self_eq_false, Bool.and_false] at hflag
  rw [show viaWrite 5 d v = _ from viaStartTimer1_eq d v]
  exact ⟨congrArg (CountDown.mk _ true) ((viaFlagSet_eq _ _).trans hflag), rfl, rfl⟩

theorem start_timer2View (d : Byte) (v : Via) :
    timer2View (viaWrite 9 d v) = ⟨joinBytes d v.t2ll, true, false⟩ := by
  have hflag := viaClear_bit .timer2 v (ViaFlag.bit_lt .timer2)
  rw [bne_self_eq_false, Bool.and_false] at hflag
  exact congrArg (CountDown.mk _ true) ((viaFlagSet_eq _ _).trans hflag)

/-- Settles O57: the registers, and the time-outs of two timers that count down alike. -/
theorem timersTimeOut : Obligations.TimersTimeOut := by
  refine ⟨timerRegisters, fun d v n => ⟨?timer1, fun htimed hshifts => ?timer2⟩⟩
  case timer1 =>
    intro w count
    obtain ⟨hview, hready⟩ : timer1View w = _ ∧ Timer1Ready (v.acr.getLsbD 6) w := start_timer1View d v
    have hcount : (timer1View w).count.toNat = count := by rw [hview]; exact joinBytes_toNat d _
    have hcounts := viaTick_timer1 (v.acr.getLsbD 6)
    obtain ⟨hout, hspent⟩ := hcounts.out hready (by rw [hview])
    rw [hcount] at hout hspent
    refine ⟨fun hn => ?_, congrArg CountDown.flag hout, fun hone => ?_⟩
    · obtain ⟨-, hleft, -, hflag⟩ := hcounts.before hready (hcount ▸ hn)
      rw [hcount] at hleft
      rw [hview] at hflag
      exact ⟨hflag, hleft⟩
    · rw [hone] at hcounts hout hspent
      exact hcounts.spent ((hspent rfl).clear _) (by rw [clear_timer1View, hout]) (by rw [clear_timer1View]) n
  case timer2 =>
    intro w count
    have hview : timer2View w = _ := start_timer2View d v
    have hready : Timer2Ready w := ⟨htimed, hshifts⟩
    have hcount : (timer2View w).count.toNat = count := by rw [hview]; exact joinBytes_toNat d _
    obtain ⟨hout, hspent⟩ := viaTick_timer2.out hready (by rw [hview])
    rw [hcount] at hout hspent
    refine ⟨fun hn => ?_, congrArg CountDown.flag hout, ?_⟩
    · obtain ⟨-, hleft, -, hflag⟩ := viaTick_timer2.before hready (hcount ▸ hn)
      rw [hcount] at hleft
      rw [hview] at hflag
      exact ⟨hflag, hleft⟩
    · exact viaTick_timer2.spent ((hspent rfl).clear _) (by rw [clear_timer2View, hout]) (by rw [clear_timer2View]) n

end Sys2Proof.Machine

/-! # The VIA: the shift register (O58)

Under the system clock in mode 110 two ticks are one shift: the first sets the phase, the second rotates SR out over CB2. -/

namespace Sys2Proof.Machine

/-! ## Register 10 (R244) -/

theorem shiftMode_eq_zero_iff (v : Via) : shiftMode v = 0 ↔ v.acr.extractLsb' 2 3 = 0 :=
  ⟨fun h => BitVec.eq_of_toNat_eq h, fun h => congrArg BitVec.toNat h⟩

theorem viaAccessSr_eq (v : Via) : viaAccessSr v =
    { v with
      ifr := v.ifr &&& ~~~viaFlagMask .shift
      srCount := if shiftMode v = 0 then v.srCount else 8
      srPhase := if shiftMode v = 0 then v.srPhase else false } := by
  by_cases h : shiftMode v = 0
  · simp only [h, if_true]
    exact if_pos h
  · simp only [h, if_false]
    exact if_neg h

/-- Register 10 of O58: what an access answers and writes. -/
theorem shiftRegister (c : TimerClear) (d : Byte) (v : Via) :
    let access := viaRead c 10 v
    access.1 = v.sr ∧ access.2.srCount = (if v.acr.extractLsb' 2 3 = 0 then v.srCount else 8) ∧
    access.2 =
      { v with ifr := v.ifr &&& 0x7B, srCount := access.2.srCount, srPhase := access.2.srPhase } ∧
    viaWrite 10 d v = { access.2 with sr := d } := by
  intro access
  have haccess : access.2 = _ := viaAccessSr_eq v
  have hwrite : viaWrite 10 d v = _ := viaAccessSr_eq { v with sr := d }
  refine ⟨rfl, ?_, ?_, ?_⟩
  · rw [haccess]
    exact if_congr (shiftMode_eq_zero_iff v) rfl rfl
  · rw [haccess]
    rfl
  · rw [hwrite, haccess]
    rfl

/-! ## Shifting out in mode 110 (R258) -/

/-- One shift out: bit 7 goes round to bit 0. -/
def rotateOut (x : Byte) : Byte := x.extractLsb' 0 7 ++ BitVec.ofBool x.msb

theorem rotateOut_eight (d : Byte) : rotateOut^[8] d = d := by
  revert d; decide

/-- The last bit of a byte to leave is its bit 0. -/
theorem rotateOut_seven_msb (d : Byte) : (rotateOut^[7] d).msb = d.getLsbD 0 := by
  revert d; decide

/-- `k` bits of the byte `d` have left, its last has not, and the flag waits for it. -/
structure ShiftingOut (d : Byte) (k : Nat) (phase : Bool) (v : Via) : Prop where
  mode : shiftMode v = 6
  sr : v.sr = rotateOut^[k] d
  count : v.srCount + k = 8
  phase : v.srPhase = phase
  flag : viaFlagSet .shift v = false

/-- A write of SR in mode 110 begins a byte. -/
theorem shiftingOut_write (d : Byte) {v : Via} (hmode : shiftMode v = 6) : ShiftingOut d 0 false (viaWrite 10 d v) := by
  have hwrite : viaWrite 10 d v = _ := viaAccessSr_eq { v with sr := d }
  have hne : shiftMode { v with sr := d } ≠ 0 := by rw [show shiftMode { v with sr := d } = 6 from hmode]; decide
  have hflag := viaClear_bit .shift v (ViaFlag.bit_lt .shift)
  rw [bne_self_eq_false, Bool.and_false] at hflag
  rw [hwrite]
  simp only [hne, if_false]
  exact ⟨hmode, rfl, rfl, rfl, (viaFlagSet_eq _ _).trans hflag⟩

/-- What keeps ACR, the three pieces of the shift register and its flag keeps the shifting. -/
theorem ShiftingOut.of_same {d : Byte} {k : Nat} {phase : Bool} {v w : Via} (h : ShiftingOut d k phase v)
    (hacr : w.acr = v.acr) (hsr : w.sr = v.sr) (hcount : w.srCount = v.srCount) (hphase : w.srPhase = v.srPhase)
    (hflag : viaFlagSet .shift w = viaFlagSet .shift v) : ShiftingOut d k phase w where
  mode := by rw [shiftMode, hacr]; exact h.mode
  sr := hsr.trans h.sr
  count := hcount ▸ h.count
  phase := hphase.trans h.phase
  flag := hflag.trans h.flag

theorem ShiftingOut.endPulses {d : Byte} {k : Nat} {phase : Bool} {v : Via} (h : ShiftingOut d k phase v) :
    ShiftingOut d k phase (viaEndPulses v) := by
  rw [viaEndPulses_frame]
  exact h.of_same rfl rfl rfl rfl rfl

theorem ShiftingOut.timer1 {d : Byte} {k : Nat} {phase : Bool} {v : Via} (h : ShiftingOut d k phase v) :
    ShiftingOut d k phase (viaTimer1 v) := by
  have hflag := (viaTimer1_raises v).flag_kept (f := .shift) (by decide)
  rw [viaTimer1_frame] at hflag ⊢
  exact h.of_same rfl rfl rfl rfl hflag

theorem viaTimer2Out_flag_shift (v : Via) : viaFlagSet .shift (viaTimer2Out v) = viaFlagSet .shift v := by
  unfold viaTimer2Out
  split
  · exact (viaFlagSet_raise .timer2 .shift v).trans (Bool.or_false _)
  · rfl

theorem ShiftingOut.timer2Out {d : Byte} {k : Nat} {phase : Bool} {v : Via} (h : ShiftingOut d k phase v) :
    ShiftingOut d k phase (viaTimer2Out v) := by
  have hflag := viaTimer2Out_flag_shift v
  rw [viaTimer2Out_frame] at hflag ⊢
  exact h.of_same rfl rfl rfl rfl hflag

/-- In mode 110 timer 2 is no shift clock. -/
theorem ShiftingOut.timedTimer2 {d : Byte} {k : Nat} {phase : Bool} {v : Via} (h : ShiftingOut d k phase v) :
    ShiftingOut d k phase (timedTimer2 v) := by
  have hshifts : timer2Shifts v = false := by rw [timer2Shifts, h.mode]; rfl
  have hcounted (c : Word) : ShiftingOut d k phase { v with t2c := c } := h.of_same rfl rfl rfl rfl rfl
  unfold Machine.timedTimer2
  split
  · exact h
  · rw [viaTimer2_of_not_shifts hshifts]
    split
    · exact (hcounted _).timer2Out
    · exact hcounted _

/-- A tick that finds the shift register shifting out is a clock of it. -/
theorem ShiftingOut.tick {d : Byte} {k : Nat} {phase : Bool} {v : Via} (h : ShiftingOut d k phase v) :
    ∃ w, ShiftingOut d k phase w ∧ viaTick v = viaShiftClock w := by
  have hw := h.endPulses.timer1.timedTimer2
  refine ⟨_, hw, ?_⟩
  rw [viaTick_eq, systemShift, hw.mode]
  rfl

theorem ShiftingOut.shifting {d : Byte} {k : Nat} {phase : Bool} {v : Via} (h : ShiftingOut d k phase v) (hk : k < 8) :
    viaShifting v = true := by
  have hcount := h.count
  rw [viaShifting, h.mode, decide_eq_true (show 0 < v.srCount by omega)]
  rfl

/-- The first tick of a pair sets the phase. -/
theorem ShiftingOut.first {d : Byte} {k : Nat} {v : Via} (h : ShiftingOut d k false v) (hk : k < 8) :
    ShiftingOut d k true (viaTick v) := by
  obtain ⟨w, hw, htick⟩ := h.tick
  rw [htick, viaShiftClock, hw.shifting hk, hw.phase, if_pos rfl, if_neg Bool.false_ne_true]
  exact ⟨hw.mode, hw.sr, hw.count, rfl, hw.flag⟩

/-- The second tick of a pair is a shift. -/
theorem ShiftingOut.second {d : Byte} {k : Nat} {v : Via} (h : ShiftingOut d k true v) (hk : k < 8) :
    let w := viaTick v
    shiftMode w = 6 ∧ w.sr = rotateOut^[k + 1] d ∧ w.srCount + (k + 1) = 8 ∧ w.srPhase = false ∧
      viaFlagSet .shift w = decide (k = 7) ∧ w.cb2Out = (rotateOut^[k] d).msb := by
  obtain ⟨u, hu, htick⟩ := h.tick
  have hbit : viaShiftBit { u with srPhase := false } =
      { u with srPhase := false, sr := rotateOut u.sr, cb2Out := u.sr.msb } := by
    unfold viaShiftBit
    rw [if_neg (by rw [show shiftMode { u with srPhase := false } = 6 from hu.mode]; decide)]
    rfl
  have hshift : viaTick v = if u.srCount - 1 = 0
      then viaRaise .shift { u with srPhase := false, sr := rotateOut u.sr, cb2Out := u.sr.msb, srCount := u.srCount - 1 }
      else { u with srPhase := false, sr := rotateOut u.sr, cb2Out := u.sr.msb, srCount := u.srCount - 1 } := by
    rw [htick, viaShiftClock, hu.shifting hk, hu.phase, if_pos rfl, if_pos rfl, viaShift, hbit,
      if_neg (by rw [show shiftMode { u with srPhase := false } = 6 from hu.mode]; decide)]
  have hcount := hu.count
  have hsr : rotateOut u.sr = rotateOut^[k + 1] d := by rw [hu.sr, Function.iterate_succ_apply']
  have hmsb : u.sr.msb = (rotateOut^[k] d).msb := by rw [hu.sr]
  have hleft : u.srCount - 1 + (k + 1) = 8 := by omega
  intro w
  rw [show w = _ from hshift]
  by_cases hlast : u.srCount - 1 = 0
  · rw [if_pos hlast]
    refine ⟨hu.mode, hsr, hleft, rfl, ?_, hmsb⟩
    rw [viaFlagSet_raise, decide_eq_true (show k = 7 by omega)]
    exact Bool.or_true _
  · rw [if_neg hlast]
    refine ⟨hu.mode, hsr, hleft, rfl, ?_, hmsb⟩
    rw [decide_eq_false (show k ≠ 7 by omega)]
    exact hu.flag

/-- Two ticks for each bit that has left. -/
theorem shiftingOut_advance {d : Byte} {v : Via} (h : ShiftingOut d 0 false v) {k : Nat} (hk : k < 8) :
    ShiftingOut d k false (viaAdvance (2 * k) v) := by
  induction k with
  | zero => exact h
  | succ k ih =>
    have hfirst := (ih (by omega)).first (by omega)
    obtain ⟨hmode, hsr, hcount, hphase, hflag, -⟩ := hfirst.second (by omega)
    rw [decide_eq_false (show k ≠ 7 by omega)] at hflag
    rw [Nat.mul_succ, viaAdvance_succ, viaAdvance_succ]
    exact ⟨hmode, hsr, hcount, hphase, hflag⟩

/-- Settles O58: eight pairs of ticks, of which the last shifts out bit 0 and sets the flag. -/
theorem shiftOutRotates : Obligations.ShiftOutRotates := by
  refine ⟨shiftRegister, fun d v hmode => ?_⟩
  have hstart := shiftingOut_write d hmode
  have hfirst {k : Nat} (hk : k < 8) : ShiftingOut d k true (viaAdvance (2 * k + 1) (viaWrite 10 d v)) := by
    rw [viaAdvance_succ]
    exact (shiftingOut_advance hstart hk).first hk
  obtain ⟨-, hsr, hcount, -, hflag, hcb2⟩ := (hfirst (k := 7) (by decide)).second (by decide)
  rw [← viaAdvance_succ] at hsr hcount hflag hcb2
  refine ⟨hsr.trans (rotateOut_eight d), Nat.add_right_cancel hcount, hflag, hcb2.trans (rotateOut_seven_msb d), ?_⟩
  intro n hn
  obtain ⟨k, rfl | rfl⟩ : ∃ k, n = 2 * k ∨ n = 2 * k + 1 := ⟨n / 2, by omega⟩
  · exact (shiftingOut_advance hstart (by omega)).flag
  · exact (hfirst (by omega)).flag

end Sys2Proof.Machine

/-! # The VIA: the control lines (O59)

The active edges of CA1 and CB1 and a write of PCR as records; the flags then follow from `viaRaise_bit`, and the end of a
CA2 pulse from `viaTick_ca2Out`. -/

namespace Sys2Proof.Machine

/-! ## Edges (R250, R255, R260) -/

/-- An active edge of CA1 ends a handshake on CA2. -/
theorem raiseCa2_eq (v : Via) : (if ca2Control v = 4 then { v with ca2Out := true } else v) =
    { v with ca2Out := v.ca2Out || decide (ca2Control v = 4) } := by
  split <;> simp [*]

theorem raiseCb2_eq (v : Via) : (if cb2Control v = 4 then { v with cb2Out := true } else v) =
    { v with cb2Out := v.cb2Out || decide (cb2Control v = 4) } := by
  split <;> simp [*]

/-- The active edge of CA1: its flag, the latch of port A, CA2. -/
theorem viaActiveCa1_eq (v : Via) : viaActiveCa1 v =
    { viaRaise .ca1 v with
      ira := if v.acr.getLsbD 0 then viaPinsA v else v.ira
      ca2Out := v.ca2Out || decide (ca2Control v = 4) } := by
  refine (raiseCa2_eq (viaRaise .ca1 (if v.acr.getLsbD 0 then { v with ira := viaPinsA v } else v))).trans ?_
  cases v.acr.getLsbD 0 <;> rfl

/-- The active edge of CB1: its flag, the latch of port B, CB2. -/
theorem viaActiveCb1_eq (v : Via) : viaActiveCb1 v =
    { viaRaise .cb1 v with
      irb := if v.acr.getLsbD 1 then (viaInputB v &&& ~~~v.ddrb) ||| (v.irb &&& v.ddrb) else v.irb
      cb2Out := v.cb2Out || decide (cb2Control v = 4) } := by
  refine (raiseCb2_eq (viaRaise .cb1 (if v.acr.getLsbD 1 then
    { v with irb := (viaInputB v &&& ~~~v.ddrb) ||| (v.irb &&& v.ddrb) } else v))).trans ?_
  cases v.acr.getLsbD 1 <;> rfl

theorem viaSetCa1_bit (level : Bool) (v : Via) {n : Nat} (hn : n < 7) :
    (viaSetCa1 level v).ifr.getLsbD n = (v.ifr.getLsbD n || n == 1 && isEdge (v.pcr.getLsbD 0) v.ca1 level) := by
  unfold viaSetCa1
  cases isEdge (v.pcr.getLsbD 0) v.ca1 level with
  | true =>
    rw [if_pos rfl, viaActiveCa1_eq, Bool.and_true]
    exact viaRaise_bit .ca1 v hn
  | false => rw [if_neg Bool.false_ne_true, Bool.and_false, Bool.or_false]

theorem viaExternalShift_raises (v : Via) : RaisesOnly [.shift] v (viaExternalShift v) := by
  unfold viaExternalShift
  split
  · exact viaShift_raises v
  · exact .of_eq rfl

/-- The edge of CB1 before its shift pulse. -/
def cb1Edge (level : Bool) (v : Via) : Via :=
  if isEdge (v.pcr.getLsbD 4) v.cb1 level then viaActiveCb1 { v with cb1 := level } else { v with cb1 := level }

theorem cb1Edge_bit (level : Bool) (v : Via) {n : Nat} (hn : n < 7) :
    (cb1Edge level v).ifr.getLsbD n = (v.ifr.getLsbD n || n == 4 && isEdge (v.pcr.getLsbD 4) v.cb1 level) := by
  unfold cb1Edge
  cases isEdge (v.pcr.getLsbD 4) v.cb1 level with
  | true =>
    rw [if_pos rfl, viaActiveCb1_eq, Bool.and_true]
    exact viaRaise_bit .cb1 v hn
  | false => rw [if_neg Bool.false_ne_true, Bool.and_false, Bool.or_false]

/-- After its edge, a rise of CB1 may be a shift pulse, which sets at most the flag of the shift register. -/
theorem viaSetCb1_raises (level : Bool) (v : Via) : RaisesOnly [.shift] (cb1Edge level v) (viaSetCb1 level v) := by
  show RaisesOnly [.shift] (cb1Edge level v)
    (if isEdge true v.cb1 level then viaExternalShift (cb1Edge level v) else cb1Edge level v)
  split
  · exact viaExternalShift_raises _
  · exact .of_eq rfl

theorem viaSetCa2_bit (level : Bool) (v : Via) {n : Nat} (hn : n < 7) :
    (viaSetCa2 level v).ifr.getLsbD n =
      (v.ifr.getLsbD n || n == 0 && (!v.pcr.getLsbD 3 && isEdge (v.pcr.getLsbD 2) v.ca2 level)) := by
  unfold viaSetCa2
  cases !v.pcr.getLsbD 3 && isEdge (v.pcr.getLsbD 2) v.ca2 level with
  | true =>
    rw [Bool.and_true]
    exact viaRaise_bit .ca2 { v with ca2 := level } hn
  | false =>
    rw [Bool.and_false, Bool.or_false]
    rfl

theorem viaSetCb2_bit (level : Bool) (v : Via) {n : Nat} (hn : n < 7) :
    (viaSetCb2 level v).ifr.getLsbD n =
      (v.ifr.getLsbD n || n == 3 && (!v.pcr.getLsbD 7 && isEdge (v.pcr.getLsbD 6) v.cb2 level)) := by
  unfold viaSetCb2
  cases !v.pcr.getLsbD 7 && isEdge (v.pcr.getLsbD 6) v.cb2 level with
  | true =>
    rw [Bool.and_true]
    exact viaRaise_bit .cb2 { v with cb2 := level } hn
  | false =>
    rw [Bool.and_false, Bool.or_false]
    rfl

/-! ## The output modes of CA2 and CB2 (R246, R260) -/

/-- Handshake mode 100. -/
theorem toNat_eq_four (x : BitVec 3) : decide (x.toNat = 4) = (x.getLsbD 2 && !x.getLsbD 1 && !x.getLsbD 0) := by
  revert x; decide

/-- The active edge of CA1 raises CA2 in mode 100. -/
theorem viaSetCa1_ca2Out (level : Bool) (v : Via) : (viaSetCa1 level v).ca2Out =
    (v.ca2Out || isEdge (v.pcr.getLsbD 0) v.ca1 level && decide (ca2Control v = 4)) := by
  unfold viaSetCa1
  cases isEdge (v.pcr.getLsbD 0) v.ca1 level with
  | true => rw [if_pos rfl, viaActiveCa1_eq, Bool.true_and]; rfl
  | false => rw [if_neg Bool.false_ne_true, Bool.false_and, Bool.or_false]

/-- A manual mode is 110 or 111 and sets its line to bit 0 of the field. -/
theorem manual_level (x : BitVec 3) (old : Bool) :
    (if x.toNat = 6 then false else if x.toNat = 7 then true else old) =
      if x.getLsbD 2 && x.getLsbD 1 then x.getLsbD 0 else old := by
  revert x old; decide

/-- What a write of PCR does to CA2. -/
def manualCa2 (v : Via) : Via :=
  if ca2Control v = 6 then { v with ca2Out := false, ca2Pulse := false }
  else if ca2Control v = 7 then { v with ca2Out := true, ca2Pulse := false } else v

theorem manualCa2_eq (v : Via) : manualCa2 v =
    { v with
      ca2Out := if v.pcr.getLsbD 3 && v.pcr.getLsbD 2 then v.pcr.getLsbD 1 else v.ca2Out
      ca2Pulse := (manualCa2 v).ca2Pulse } := by
  have hlevel := manual_level (v.pcr.extractLsb' 1 3) v.ca2Out
  rw [field_getLsbD _ _ (by decide), field_getLsbD _ _ (by decide), field_getLsbD _ _ (by decide)] at hlevel
  rw [show (if v.pcr.getLsbD 3 && v.pcr.getLsbD 2 then v.pcr.getLsbD 1 else v.ca2Out) = _ from hlevel.symm, ← ca2Control]
  unfold manualCa2
  split
  · rfl
  · split <;> rfl

/-- What a write of PCR does to CB2. -/
def manualCb2 (v : Via) : Via :=
  if cb2Control v = 6 then { v with cb2Out := false, cb2Pulse := false }
  else if cb2Control v = 7 then { v with cb2Out := true, cb2Pulse := false } else v

theorem manualCb2_eq (v : Via) : manualCb2 v =
    { v with
      cb2Out := if v.pcr.getLsbD 7 && v.pcr.getLsbD 6 then v.pcr.getLsbD 5 else v.cb2Out
      cb2Pulse := (manualCb2 v).cb2Pulse } := by
  have hlevel := manual_level (v.pcr.extractLsb' 5 3) v.cb2Out
  rw [field_getLsbD _ _ (by decide), field_getLsbD _ _ (by decide), field_getLsbD _ _ (by decide)] at hlevel
  rw [show (if v.pcr.getLsbD 7 && v.pcr.getLsbD 6 then v.pcr.getLsbD 5 else v.cb2Out) = _ from hlevel.symm, ← cb2Control]
  unfold manualCb2
  split
  · rfl
  · split <;> rfl

/-- A write of PCR: the register, a line in a manual mode, and the pulses. -/
theorem viaWritePcr_eq (d : Byte) (v : Via) : viaWritePcr d v =
    { v with
      pcr := d
      ca2Out := if d.getLsbD 3 && d.getLsbD 2 then d.getLsbD 1 else v.ca2Out
      cb2Out := if d.getLsbD 7 && d.getLsbD 6 then d.getLsbD 5 else v.cb2Out
      ca2Pulse := (viaWritePcr d v).ca2Pulse
      cb2Pulse := (viaWritePcr d v).cb2Pulse } := by
  rw [show viaWritePcr d v = manualCb2 (manualCa2 { v with pcr := d }) from rfl, manualCb2_eq, manualCa2_eq]

/-- An access of register 1 in mode 101 lowers CA2 and begins a pulse. -/
theorem viaAccessA_pulse {v : Via} (hmode : v.pcr.extractLsb' 1 3 = 5) :
    (viaAccessA v).ca2Out = false ∧ (viaAccessA v).ca2Pulse = true := by
  have hcontrol : ca2Control v = 5 := congrArg BitVec.toNat hmode
  rw [viaAccessA_eq, hcontrol]
  exact ⟨Bool.and_false _, rfl⟩

/-- Settles O59: each line's edge by its flag, CA2 by the mode PCR selects. -/
theorem controlLineEdges : Obligations.ControlLineEdges := by
  intro c level d v activeA activeB
  refine ⟨fun n hn => ⟨?ca1, fun hne => ?cb1, fun hset => ?keeps, ?ca2, ?cb2⟩, ?handshake, rfl, viaWritePcr_eq d v,
    fun hmode => ?pulse, fun hpulse => ?noPulse⟩
  case ca1 => exact viaSetCa1_bit level v hn
  case cb1 =>
    have hother : n ∉ [ViaFlag.shift].map ViaFlag.bit := by simpa [ViaFlag.bit] using hne
    exact ((viaSetCb1_raises level v).kept hn hother).trans (cb1Edge_bit level v hn)
  case keeps =>
    refine (viaSetCb1_raises level v).set_of_set hn ?_
    rw [cb1Edge_bit level v hn, hset, Bool.true_or]
  case ca2 =>
    rw [viaSetCa2_bit level v hn]
    simp only [isEdge, Bool.and_assoc]
  case cb2 =>
    rw [viaSetCb2_bit level v hn]
    simp only [isEdge, Bool.and_assoc]
  case handshake =>
    have hmode : decide (ca2Control v = 4) = (v.pcr.getLsbD 3 && !v.pcr.getLsbD 2 && !v.pcr.getLsbD 1) := by
      rw [ca2Control, toNat_eq_four, field_getLsbD _ _ (by decide), field_getLsbD _ _ (by decide),
        field_getLsbD _ _ (by decide)]
    rw [viaSetCa1_ca2Out, hmode]
    simp only [activeA, isEdge, Bool.and_assoc]
  case pulse =>
    obtain ⟨hlow, hpulse⟩ := viaAccessA_pulse hmode
    exact ⟨hlow, (viaTick_ca2Out _).trans (by rw [show (viaRead c 1 v).2.ca2Pulse = true from hpulse, Bool.or_true])⟩
  case noPulse => rw [viaTick_ca2Out, hpulse, Bool.or_false]

end Sys2Proof.Machine

/-! # RESET: while it is asserted, and its release (O13)

`ReadyForVector` is everything the reset sequence does before it reads its vector; the rest is `loadVector`. -/

namespace Sys2Proof.Machine

/-! ## RESET asserted (log 12) -/

theorem putSteps_frame (n : Nat) (s : State) : SameBut [.steps] s (s.putSteps n) := by
  rw [sameBut_iff]; simp

theorem putResetLine_frame (level : Bool) (s : State) : SameBut [.resetLine] s (s.putResetLine level) := by
  rw [sameBut_iff]; simp

/-- With RESET asserted a step is only counted. -/
theorem step_resetAsserted {s : State} (h : (takeInputs s).resetLine = true) :
    step s = .next ((takeInputs s).putSteps ((takeInputs s).steps + 1)) := by
  unfold step stepOnce
  exact if_pos h

/-! ## The release (70_reset_and_hazards R280, 60_exceptions R261) -/

/-- The pieces the reset sequence writes before it reads its vector. -/
def resetParts : List Part := [.dp, .flag .i, .flag .f, .wait, .nmiArmed, .nmiPending, .via, .draws]

/-- The state `q` in which the reset sequence, begun in `s`, reads its vector. -/
structure ReadyForVector (s q : State) : Prop where
  dp : q.dp = 0x00
  i : ccI q.cc = true
  f : ccF q.cc = true
  wait : q.wait = .running
  nmiArmed : q.nmiArmed = false
  nmiPending : q.nmiPending = false
  via : ∃ t1c t1l t2c t2ll sr, q.via = viaReset t1c t1l t2c t2ll sr s.via
  same : SameBut resetParts s q

/-- The reset sequence ends with its vector, and nothing before that writes a register R280 does not name. -/
theorem resetSequence_vector (s : State) :
    ∃ q, ReadyForVector s q ∧ resetSequence s = loadVector resetVector q := by
  refine ⟨_, ?ready, rfl⟩
  exact {
    dp := rfl
    i := by simp
    f := by simp
    wait := rfl
    nmiArmed := rfl
    nmiPending := rfl
    via := ⟨_, _, _, _, _, rfl⟩
    same := by rw [sameBut_iff]; simp [resetParts] }

/-- With its vector in RAM or ROM the reset sequence writes PC after that, and the read has no side effect. -/
theorem resetSequence_plain {s : State} (h : isPlain s.params 0xFFFE = true) (h' : isPlain s.params 0xFFFF = true) :
    ∃ q, ReadyForVector s q ∧ resetSequence s = q.putPc (wordAt s.mem 0xFFFE) := by
  obtain ⟨q, hready, hreset⟩ := resetSequence_vector s
  have hparams : q.params = s.params := hready.same .params (by decide)
  have hmem : q.mem = s.mem := hready.same .mem (by decide)
  refine ⟨q, hready, ?_⟩
  rw [hreset, loadVector_plain (by rw [hparams]; exact h) (by rw [hparams]; exact h'), hmem]
  rfl

/-- A release of RESET after it was asserted runs the reset sequence. -/
theorem applyEvent_release {s : State} (h : s.resetLine = true) :
    applyEvent (.reset false) s = resetSequence (s.putResetLine false) := by
  simp [applyEvent, h]

/-- Settles O13: the step is only counted, and the release is `ReadyForVector`, then PC. (`resetSequence` is the model's own
operation.) -/
theorem resetSequence_holds : Obligations.ResetSequence := by
  refine ⟨fun s hreset => ⟨_, step_resetAsserted hreset, putSteps_frame _ _⟩, fun s hreset hhigh hlow => ?release⟩
  obtain ⟨q, hready, hq⟩ := resetSequence_plain (s := s.putResetLine false) hhigh hlow
  obtain ⟨hdp, hi, hf, hwait, harmed, hpending, ⟨t1c, t1l, t2c, t2ll, sr, hvia⟩, hsame⟩ := hready
  have hline : q.resetLine = false := hsame .resetLine (by decide)
  have hframe := (putResetLine_frame false s).trans (hsame.trans (putPc_frame (wordAt s.mem 0xFFFE) q))
  have hflags : FlagsAre (q.putPc (wordAt s.mem 0xFFFE)) [(.i, true), (.f, true)] := by
    simp only [FlagsAre, List.forall_mem_cons]
    exact ⟨hi, hf, nofun⟩
  rw [applyEvent_release hreset, hq]
  refine ⟨rfl, hdp, hflags, hwait, harmed, hpending, hline, ?via⟩
  simp only [putPc_via, putResetLine_mem, hvia]
  exact ⟨rfl, rfl, rfl, rfl, rfl, rfl, rfl, rfl, rfl, rfl, rfl, rfl, rfl, rfl, rfl, rfl, rfl, hframe.mono (by decide)⟩

end Sys2Proof.Machine
